-- ==== Sys2Proof/Word.lean ====
section
/-! DEFINITION. The word types of FBP-CORE: bytes, command words and 64-bit argument and result words
(spec/30_encoding.md R110; spec/20_memory.md R85). -/

namespace Sys2Proof

/-- A byte of a payload, a frame or an output list. -/
abbrev Byte := BitVec 8

/-- The 32-bit command word `CW`. -/
abbrev CmdWord := BitVec 32

/-- A 64-bit argument or result word. -/
abbrev Word64 := BitVec 64

/-- An FX value of the time-sync filter: 128 bits read as two's complement, standing for `v · 2^-32`
(spec/43_timesync.md R262). -/
abbrev Fx := BitVec 128

end Sys2Proof
end

