-- ==== Sys2Proof/Syntax.lean ====
section
/-! DEFINITION. The commands of FBP-CORE, one constructor per row of spec/opcode_table.json, and the transaction that
carries a command on the port (spec/30_encoding.md R110 to R112). -/

namespace Sys2Proof

/-- A command with its operands as the port carries them: the raw `A` field, the raw 64-bit argument words and the
payload bytes. A range check of R113 is part of a command's meaning, so an operand out of range is a term too. -/
inductive Instr where
  /-- `NOP` (R337). -/
  | nop
  /-- `CRC8 crc_in, payload` (R147). -/
  | crc8 (crcIn : Word64) (data : List Byte)
  /-- `CRC16 crc_in, payload` (R148). -/
  | crc16 (crcIn : Word64) (data : List Byte)
  /-- `CRC32 crc_in, payload` (R149). -/
  | crc32 (crcIn : Word64) (data : List Byte)
  /-- `FR_RESET` (R160). -/
  | frReset
  /-- `FR_RECV payload` (R161). -/
  | frRecv (data : List Byte)
  /-- `FR_STATUS` (R162). -/
  | frStatus
  /-- `FR_CONSTRUCT_DATA frame_id, metadata, payload` (R180). -/
  | frConstructData (frameId metadata : Word64) (data : List Byte)
  /-- `FR_CONSTRUCT_LINK frame_type, frame_id` (R181), the frame type in `A`. -/
  | frConstructLink (a : BitVec 8) (frameId : Word64)
  /-- `TP_REGISTER port_id, flags, user_data, meta` (R221), the port in `A`. -/
  | tpRegister (a : BitVec 8) (flags userData portMeta : Word64)
  /-- `TP_REGISTER_DEFAULT flags, user_data` (R223). -/
  | tpRegisterDefault (flags userData : Word64)
  /-- `TP_SEND port_id, seq, port_data, message` (R226), the port in `A`. -/
  | tpSend (a : BitVec 8) (seq portData : Word64) (data : List Byte)
  /-- `TP_EVENT event` (R229), the event code in `A`. -/
  | tpEvent (a : BitVec 8)
  /-- `TP_RECV metadata, message` (R232). -/
  | tpRecv (metadata : Word64) (data : List Byte)
  /-- `TS_RESET` (R280). -/
  | tsReset
  /-- `TS_UPDATE src_tx, tgt_rx, tgt_tx, src_rx` (R265). -/
  | tsUpdate (srcTx tgtRx tgtTx srcRx : Word64)
  /-- `TS_TIME` (R279). -/
  | tsTime
  /-- `TS_READ` (R278). -/
  | tsRead
deriving DecidableEq, Repr

/-- One transaction on the command port (R110): the command word, the argument words and the payload bytes. -/
structure Transaction where
  /-- The command word `CW`. -/
  cw : CmdWord
  /-- The argument words `ARG[0..NARG-1]`. -/
  args : List Word64
  /-- The payload bytes `DATA[0..LEN-1]`. -/
  data : List Byte
deriving DecidableEq, Repr

/-- `OPC = CW[31:24]` (R111). -/
def Transaction.opc (tx : Transaction) : BitVec 8 := tx.cw.extractLsb' 24 8

/-- `A = CW[23:16]` (R111). -/
def Transaction.a (tx : Transaction) : BitVec 8 := tx.cw.extractLsb' 16 8

/-- `LEN = CW[15:0]` (R111). -/
def Transaction.len (tx : Transaction) : Nat := (tx.cw.extractLsb' 0 16).toNat

end Sys2Proof
end

