-- ==== Sys2Proof/WellFormed.lean ====
section
/-! DEFINITION. When a command term is one the port can carry. Operand ranges are no part of it: a command with an
operand out of range is well formed and answers PARAM_INVALID (spec/30_encoding.md R113). -/

namespace Sys2Proof

/-- `MAX_CMD_LEN` (spec/00_scope.md R7): the most payload bytes one command carries. -/
def maxCmdLen : Nat := 65535

/-- The payload bytes of a command; none where its usage class takes none (R111). -/
def Instr.payload : Instr → List Byte
  | .nop => []
  | .crc8 _ data => data
  | .crc16 _ data => data
  | .crc32 _ data => data
  | .frReset => []
  | .frRecv data => data
  | .frStatus => []
  | .frConstructData _ _ data => data
  | .frConstructLink _ _ => []
  | .tpRegister _ _ _ _ => []
  | .tpRegisterDefault _ _ => []
  | .tpSend _ _ _ data => data
  | .tpEvent _ => []
  | .tpRecv _ data => data
  | .tsReset => []
  | .tsUpdate _ _ _ _ => []
  | .tsTime => []
  | .tsRead => []

/-- A command is well formed when its payload fits the 16-bit `LEN` field (R111; `MAX_CMD_LEN` of R7). -/
def Instr.wf (i : Instr) : Bool := decide (i.payload.length ≤ maxCmdLen)

end Sys2Proof
end

