-- ==== Sys2Proof/Decode.lean ====
section
/-! DEFINITION. The opcode map, the decoder, total on every transaction and rejecting by name, and the encoder
(spec/30_encoding.md R110 to R116). -/

namespace Sys2Proof

/-- The four usage classes of the command word (R111). -/
inductive UsageClass where
  /-- Neither `A` nor `LEN` is used. -/
  | z
  /-- `A` is used, `LEN` must be 0. -/
  | a
  /-- `LEN` is used, `A` must be 0. -/
  | l
  /-- Both are used. -/
  | al
deriving DecidableEq, Repr

/-- Whether the class leaves the `A` field reserved (R111, R114). -/
def UsageClass.reservesA : UsageClass → Bool
  | .z => true
  | .a => false
  | .l => true
  | .al => false

/-- Whether the class leaves the `LEN` field reserved (R111, R114). -/
def UsageClass.reservesLen : UsageClass → Bool
  | .z => true
  | .a => true
  | .l => false
  | .al => false

/-- One row of the opcode map. -/
structure OpRow where
  /-- The opcode `OPC`. -/
  opc : BitVec 8
  /-- The usage class of the command word. -/
  usage : UsageClass
  /-- `NARG`, the number of argument words. -/
  narg : Nat
  /-- `NRES`, the number of result words. -/
  nres : Nat
deriving DecidableEq, Repr

/-- The opcode map of R112, in its order. Every opcode not listed is unassigned (R115). -/
def opTable : List OpRow :=
  [ ⟨0x00, .z, 0, 0⟩, ⟨0x10, .l, 1, 1⟩, ⟨0x11, .l, 1, 1⟩, ⟨0x12, .l, 1, 1⟩ ] ++
  [ ⟨0x20, .z, 0, 0⟩, ⟨0x21, .l, 0, 0⟩, ⟨0x22, .z, 0, 3⟩, ⟨0x23, .l, 2, 0⟩, ⟨0x24, .a, 1, 0⟩ ] ++
  [ ⟨0x30, .a, 3, 0⟩, ⟨0x31, .z, 2, 0⟩, ⟨0x32, .al, 2, 1⟩, ⟨0x33, .a, 0, 0⟩, ⟨0x34, .l, 1, 0⟩ ] ++
  [ ⟨0x40, .z, 0, 0⟩, ⟨0x41, .z, 4, 1⟩, ⟨0x42, .z, 0, 1⟩, ⟨0x43, .z, 0, 4⟩ ]

/-- The row of an opcode, if it is assigned. -/
def opRow? (opc : BitVec 8) : Option OpRow := opTable.find? fun r => r.opc == opc

/-- `NARG(OPC)`; an unassigned opcode has none (R110). -/
def nargOf (opc : BitVec 8) : Nat := ((opRow? opc).map OpRow.narg).getD 0

/-- `NRES(OPC)`; none for an unassigned opcode (DEDUCED, log 8). -/
def nresOf (opc : BitVec 8) : Nat := ((opRow? opc).map OpRow.nres).getD 0

/-- Why the decoder gives no command. -/
inductive Rejection where
  /-- The opcode is not in the map (R115): the command fails with ILLEGAL_COMMAND. -/
  | unassignedOpcode (opc : BitVec 8)
  /-- `A` or `LEN` is nonzero where the class reserves it (R114): the command fails with ILLEGAL_COMMAND. -/
  | reservedField (opc : BitVec 8)
  /-- The words are no command transaction: not `NARG` argument words or not `LEN` bytes (R110, log 7). -/
  | misframed
deriving DecidableEq, Repr

/-- The transaction has `NARG(OPC)` argument words and `LEN` payload bytes (R110). -/
def Transaction.framed (tx : Transaction) : Bool :=
  tx.args.length == nargOf tx.opc && tx.data.length == tx.len

/-- A field that the class of the opcode reserves is nonzero (R114). -/
def OpRow.reservedSet (r : OpRow) (tx : Transaction) : Bool :=
  (r.usage.reservesA && tx.a != 0) || (r.usage.reservesLen && tx.len != 0)

/-- The command of an assigned opcode with its operands in the order of R112. -/
def build (opc a : BitVec 8) (args : List Word64) (data : List Byte) : Option Instr :=
  match opc.toNat, args with
  | 0x00, [] => some .nop
  | 0x10, [crcIn] => some (.crc8 crcIn data)
  | 0x11, [crcIn] => some (.crc16 crcIn data)
  | 0x12, [crcIn] => some (.crc32 crcIn data)
  | 0x20, [] => some .frReset
  | 0x21, [] => some (.frRecv data)
  | 0x22, [] => some .frStatus
  | 0x23, [frameId, metadata] => some (.frConstructData frameId metadata data)
  | 0x24, [frameId] => some (.frConstructLink a frameId)
  | 0x30, [flags, userData, portMeta] => some (.tpRegister a flags userData portMeta)
  | 0x31, [flags, userData] => some (.tpRegisterDefault flags userData)
  | 0x32, [seq, portData] => some (.tpSend a seq portData data)
  | 0x33, [] => some (.tpEvent a)
  | 0x34, [metadata] => some (.tpRecv metadata data)
  | 0x40, [] => some .tsReset
  | 0x41, [srcTx, tgtRx, tgtTx, srcRx] => some (.tsUpdate srcTx tgtRx tgtTx srcRx)
  | 0x42, [] => some .tsTime
  | 0x43, [] => some .tsRead
  | _, _ => none

/-- The decoder. The checks stand in the order of spec/60_exceptions.md R323, after the framing of R110. -/
def decode (tx : Transaction) : Except Rejection Instr :=
  if tx.framed then
    match opRow? tx.opc with
    | none => .error (.unassignedOpcode tx.opc)
    | some row =>
      if row.reservedSet tx then .error (.reservedField tx.opc)
      else match build tx.opc tx.a tx.args tx.data with
        | some i => .ok i
        | none => .error .misframed
  else .error .misframed

/-- The command word `{OPC, A, LEN}` (R111). -/
def cmdWord (opc a : BitVec 8) (len : Nat) : CmdWord := opc ++ a ++ BitVec.ofNat 16 len

/-- A transaction from an opcode, a selector, argument words and a payload. -/
def transaction (opc a : BitVec 8) (args : List Word64) (data : List Byte) : Transaction :=
  { cw := cmdWord opc a data.length, args := args, data := data }

/-- The encoder: the transaction of a command, from the map of R112. -/
def encode : Instr → Transaction
  | .nop => transaction 0x00 0 [] []
  | .crc8 crcIn data => transaction 0x10 0 [crcIn] data
  | .crc16 crcIn data => transaction 0x11 0 [crcIn] data
  | .crc32 crcIn data => transaction 0x12 0 [crcIn] data
  | .frReset => transaction 0x20 0 [] []
  | .frRecv data => transaction 0x21 0 [] data
  | .frStatus => transaction 0x22 0 [] []
  | .frConstructData frameId metadata data => transaction 0x23 0 [frameId, metadata] data
  | .frConstructLink a frameId => transaction 0x24 a [frameId] []
  | .tpRegister a flags userData portMeta => transaction 0x30 a [flags, userData, portMeta] []
  | .tpRegisterDefault flags userData => transaction 0x31 0 [flags, userData] []
  | .tpSend a seq portData data => transaction 0x32 a [seq, portData] data
  | .tpEvent a => transaction 0x33 a [] []
  | .tpRecv metadata data => transaction 0x34 0 [metadata] data
  | .tsReset => transaction 0x40 0 [] []
  | .tsUpdate srcTx tgtRx tgtTx srcRx => transaction 0x41 0 [srcTx, tgtRx, tgtTx, srcRx] []
  | .tsTime => transaction 0x42 0 [] []
  | .tsRead => transaction 0x43 0 [] []

/-- The opcode of a command (R112). -/
def Instr.opc (i : Instr) : BitVec 8 := (encode i).opc

/-! ## A transaction as one number

Bit 0 is the least significant bit of the command word; the argument words and then the payload bytes follow it, each
least significant bit first (spec/opcode_table.json's numbering; log 13). -/

/-- The number whose base-2^w digits are the words, the first the least significant. -/
def packWords {w : Nat} : List (BitVec w) → Nat
  | [] => 0
  | x :: xs => x.toNat + 2 ^ w * packWords xs

/-- The n low base-2^w digits of a number. -/
def unpackWords (w : Nat) : Nat → Nat → List (BitVec w)
  | 0, _ => []
  | n + 1, v => BitVec.ofNat w v :: unpackWords w n (v / 2 ^ w)

/-- A transaction as one number. -/
def Transaction.toBits (tx : Transaction) : Nat :=
  tx.cw.toNat + 2 ^ 32 * (packWords tx.args + 2 ^ (64 * tx.args.length) * packWords tx.data)

/-- The transaction whose bits are a number: as many argument words and payload bytes as its command word asks for. -/
def Transaction.ofBits (v : Nat) : Transaction :=
  let head : Transaction := { cw := BitVec.ofNat 32 v, args := [], data := [] }
  let narg := nargOf head.opc
  { cw := head.cw
    args := unpackWords 64 narg (v / 2 ^ 32)
    data := unpackWords 8 head.len (v / 2 ^ (32 + 64 * narg)) }

/-- The instruction the decoder reads from the bits `w`, of which the low `nbits` count and all above are 0. -/
def decodeTableWord (nbits w : Nat) : Option Instr :=
  match decode (Transaction.ofBits (w % 2 ^ nbits)) with
  | .ok i => some i
  | .error _ => none

end Sys2Proof
end

