-- ==== Sys2Proof/Config.lean ====
section
/-! DEFINITION. What an integration fixes before reset (the OPEN parameters of spec/00_scope.md R7) and the free
values, which nothing in Lean can evaluate. -/

namespace Sys2Proof

/-- The OPEN parameter `FRAME_CRC` (spec/40_crc.md R151): the default CRC-32, or a function the integration
supplies, of which nothing is known but that it is a function of the span's bytes (log 5). -/
inductive FrameCrcChoice where
  /-- The default, the CRC-32 of R146 over the span. -/
  | crc32
  /-- A caller-supplied function, `Config.suppliedFrameCrc`. -/
  | supplied
deriving DecidableEq, Repr

/-- The OPEN parameters of spec/00_scope.md R7. They are fixed for the life of the block
(spec/70_reset_and_hazards.md R364): no step changes them. -/
structure Params where
  /-- `COUNTER_HZ`, the frequency f of the counter, 1 to 2^62. -/
  counterHz : Nat
  /-- `UPDATE_PROCESS_MAX`, the history cap M, 1 to 15. -/
  updateProcessMax : Nat
  /-- `FRAME_CRC`. -/
  frameCrc : FrameCrcChoice
deriving DecidableEq, Repr

/-- The legal ranges of spec/00_scope.md R7. -/
abbrev Params.Legal (p : Params) : Prop :=
  (1 ≤ p.counterHz ∧ p.counterHz ≤ 2 ^ 62) ∧ 1 ≤ p.updateProcessMax ∧ p.updateProcessMax ≤ 15

/-- The parameters that the spec's vectors use (spec/95_test_vectors.md, opening): `FRAME_CRC` and `M` at their
defaults of R7, `COUNTER_HZ` = 1000, for which R7 gives no default (DESIGN CHOICE, log 4). -/
def Params.vectors : Params := { counterHz := 1000, updateProcessMax := 8, frameCrc := .crc32 }

/-- The supplied frame CRC function (spec/40_crc.md R151): a free function (log 5). -/
opaque Config.suppliedFrameCrc : List Byte → BitVec 32

/-- What a floor division gives for a divisor that is not positive, which spec/00_scope.md R11 leaves undefined and
spec/43_timesync.md R267 shows unreachable: a free value of the operands (log 9). -/
opaque Config.freeQuotient : Int → Int → Int

/-- What a read of `FR_BUF` beyond its 269 bytes gives, which no run reaches (spec/20_memory.md R95): a free value of
the index (log 10). -/
opaque Config.strayByte : Nat → Byte

end Sys2Proof
end

