-- ==== Sys2Proof/Machine/Fixed.lean ====
section
/-! DEFINITION. Integer and fixed-point arithmetic: floor division, the width conversions of spec/00_scope.md R12, the
FX operations of spec/43_timesync.md R262 and the nominal scale of spec/10_state.md R55. Every quantity is a
mathematical integer, narrowed only where a rule narrows it (R11). -/

namespace Sys2Proof.Machine

/-- `a div b` of R11: floor division for `b > 0`. R11 gives it no other meaning, and no run needs one (R267): a
divisor that is not positive gives a free value (log 9). -/
def floorDiv (a b : Int) : Int := if 0 < b then a / b else Config.freeQuotient a b

/-- `min(max(v, lo), hi)`, the shape of every saturation of R12. -/
def clamp (lo hi v : Int) : Int := min (max v lo) hi

/-- `sat64` (R12). -/
def sat64 (v : Int) : Int := clamp (-2 ^ 63) (2 ^ 63 - 1) v

/-- `satu64` (R12), used only for the scale, which stays positive. -/
def satu64 (v : Int) : Int := clamp 1 (2 ^ 64 - 1) v

/-- `sat128` (R12). -/
def sat128 (v : Int) : Int := clamp (-2 ^ 127) (2 ^ 127 - 1) v

/-- `u64(w)`: the word read as unsigned (R12). -/
def u64 (w : Word64) : Int := (w.toNat : Int)

/-- `s64(w)`: the word read as two's complement (R12, R83). -/
def s64 (w : Word64) : Int := w.toInt

/-- `wrapu64(v)`: the word that holds `v mod 2^64` (R12). -/
def wrapu64 (v : Int) : Word64 := BitVec.ofInt 64 v

/-- The 128-bit word that holds an FX value kept in range by `sat128`. -/
def toFx (v : Int) : Fx := BitVec.ofInt 128 v

/-- `fxmul(a, b) = sat128((a · b) div 2^32)` (R262). -/
def fxmul (a b : Int) : Int := sat128 (floorDiv (a * b) (2 ^ 32))

/-- `fxdiv(a, b) = sat128((a · 2^32) div b)`, used only with `b > 0` (R262). -/
def fxdiv (a b : Int) : Int := sat128 (floorDiv (a * 2 ^ 32) b)

/-- `SCALE_NOM = (2^63 + f) div (2·f)` (spec/10_state.md R55). -/
def scaleNom (f : Nat) : Int := floorDiv (2 ^ 63 + f) (2 * f)

/-- The scale that a deviation gives: `satu64(SCALE_NOM + ((SCALE_NOM · TS_DS) div 2^62))` (R261). -/
def scaleOf (f : Nat) (ds : Int) : Int := satu64 (scaleNom f + floorDiv (scaleNom f * ds) (2 ^ 62))

end Sys2Proof.Machine
end

