-- ==== Sys2Proof/Machine/State.lean ====
section
/-! DEFINITION. The state of FBP-CORE (spec/10_state.md R34 to R53), the command port's inputs and responses, the
outcomes of a step, and the state after reset (spec/70_reset_and_hazards.md R360). -/

namespace Sys2Proof.Machine

/-! ## Framer state -/

/-- `FR_STATE`, the scanner's parse state (R34). -/
inductive ParseState where
  /-- `SOF1` = 0: look for the first start byte. -/
  | sof1
  /-- `SOF2` = 1: look for the second start byte. -/
  | sof2
  /-- `FRAME_TYPE` = 2: take the type/id byte. -/
  | frameType
  /-- `DATA_HEADER` = 3: take the rest of the six checked header bytes. -/
  | dataHeader
  /-- `STORE` = 4: take the rest of the frame. -/
  | store
deriving DecidableEq, Repr

/-- The framer's state (R34 to R41). -/
structure Framer where
  /-- `FR_STATE` (R34). -/
  state : ParseState
  /-- `FR_IS_SYNC` (R35). -/
  isSync : Bool
  /-- `FR_BUF[0..268]`, the reassembly buffer of `BUF_SIZE` bytes (R36). -/
  buf : Vector Byte 269
  /-- `FR_N`, the number of bytes held (R37). -/
  n : Nat
  /-- `FR_TARGET`, the total length of the candidate frame (R38). -/
  target : Nat
  /-- `FR_TOTAL_BYTES` (R39). -/
  totalBytes : Word64
  /-- `FR_IGNORED_BYTES` (R40). -/
  ignoredBytes : Word64
  /-- `FR_RESYNC_COUNT` (R41). -/
  resyncCount : Word64
deriving DecidableEq, Repr

/-- The framer after reset (R34 to R41). R36 leaves `FR_BUF` unspecified: zero bytes (DESIGN CHOICE, log 6). -/
def Framer.reset : Framer :=
  { state := .sof1, isSync := true, buf := Vector.replicate 269 0, n := 0, target := 0,
    totalBytes := 0, ignoredBytes := 0, resyncCount := 0 }

/-! ## Transport state -/

/-- One slot `TP_PORT[p]` of the port table (R43). -/
structure PortSlot where
  /-- `EV_EN`: the port has an event handler. -/
  evEn : Bool
  /-- `RX_EN`: the port has a receive handler. -/
  rxEn : Bool
  /-- `USER_DATA`, opaque. -/
  userData : Word64
  /-- `META`, opaque: stored and never read (spec/42_transport.md R222). -/
  portMeta : Word64
deriving DecidableEq, Repr

/-- The default handler slot `TP_DEF` (R44). -/
structure DefaultSlot where
  /-- `EV_EN`. -/
  evEn : Bool
  /-- `RX_EN`. -/
  rxEn : Bool
  /-- `USER_DATA`, opaque. -/
  userData : Word64
deriving DecidableEq, Repr

/-- The Transport's state (R43 to R45). -/
structure Transport where
  /-- `TP_PORT[0..31]` (R43). -/
  ports : Vector PortSlot 32
  /-- `TP_DEF` (R44). -/
  deflt : DefaultSlot
  /-- `TP_LAST_EVENT` (R45). -/
  lastEvent : BitVec 8
deriving DecidableEq, Repr

/-- The Transport after reset: no handlers, last event `DISCONNECTED` (R43 to R45). -/
def Transport.reset : Transport :=
  { ports := Vector.replicate 32 { evEn := false, rxEn := false, userData := 0, portMeta := 0 }
    deflt := { evEn := false, rxEn := false, userData := 0 }
    lastEvent := 1 }

/-! ## Time-sync state -/

/-- One entry of the sample FIFO (R51). -/
structure Sample where
  /-- The mean local counter of the round trip, unsigned. -/
  counter : Word64
  /-- The mean remote time, Q34.30 in two's complement. -/
  time : Word64
  /-- The one-way-delay estimate in ticks, unsigned. -/
  dcounter : Word64
deriving DecidableEq, Repr

/-- The time-sync filter's state (R46 to R53). -/
structure TimeSync where
  /-- `TS_TIME_OFFSET`, Q34.30 in two's complement (R46). -/
  timeOffset : Word64
  /-- `TS_COUNTER_OFFSET`, unsigned (R47). -/
  counterOffset : Word64
  /-- `TS_SCALE`, unsigned (R48). -/
  scale : Word64
  /-- `TS_DS` (R49). -/
  ds : Fx
  /-- `TS_P_TT` (R50). -/
  pTT : Fx
  /-- `TS_P_TS` (R50). -/
  pTS : Fx
  /-- `TS_P_SS` (R50). -/
  pSS : Fx
  /-- `TS_FIFO[0..15]` (R51). -/
  fifo : Vector Sample 16
  /-- `TS_HEAD` (R52). -/
  head : BitVec 4
  /-- `TS_NHIST`, 4 bits wide (R53, R57). -/
  nhist : BitVec 4
deriving DecidableEq, Repr

/-- The filter after reset, for a counter of frequency `f` (R46 to R53, R55). -/
def TimeSync.reset (f : Nat) : TimeSync :=
  { timeOffset := 0, counterOffset := 0, scale := wrapu64 (scaleNom f), ds := 0, pTT := 0, pTS := 0, pSS := 0
    fifo := Vector.replicate 16 { counter := 0, time := 0, dcounter := 0 }, head := 0, nhist := 0 }

/-! ## The command port -/

/-- The status `ST` of a response (spec/60_exceptions.md R320). -/
inductive Status where
  /-- `OK`. -/
  | ok
  /-- `PARAM_INVALID`: an operand is outside its legal range. -/
  | paramInvalid
  /-- `ILLEGAL_COMMAND`: unassigned opcode, or a reserved field is nonzero. -/
  | illegalCommand
  /-- `LL_ERROR`: the lower layer returned a nonzero code, `TP_SEND` only. -/
  | llError
deriving DecidableEq, Repr

/-- The handler an event is delivered to (spec/30_encoding.md R118). -/
inductive Dest where
  /-- `PORT(p)`. -/
  | port (p : BitVec 5)
  /-- `DEFAULT`. -/
  | dflt
deriving DecidableEq, Repr

/-- The output events, with the field widths of spec/30_encoding.md R118. -/
inductive Event where
  /-- `EV_FR_DATA`. -/
  | frData (frameId : BitVec 11) (metadata : BitVec 16) (payload : List Byte)
  /-- `EV_FR_LINK`. -/
  | frLink (frameType : BitVec 5) (frameId : BitVec 11)
  /-- `EV_FR_ERROR`. -/
  | frError
  /-- `EV_LL_SEND`. -/
  | llSend (metadata : BitVec 16) (msg : List Byte)
  /-- `EV_PORT_EVENT`. -/
  | portEvent (dest : Dest) (userData : Word64) (event : BitVec 8)
  /-- `EV_PORT_RECV`. -/
  | portRecv (dest : Dest) (userData : Word64) (portId : BitVec 5) (seq : BitVec 2) (portData : BitVec 8)
      (msg : List Byte)
deriving DecidableEq, Repr

/-- The response to one command (spec/30_encoding.md R110, R117). -/
structure Response where
  /-- `ST`. -/
  status : Status
  /-- The result words `RES[0..NRES-1]`. -/
  res : List Word64
  /-- The output byte list `OUT`. -/
  out : List Byte
  /-- The event list `EV`. -/
  events : List Event
deriving DecidableEq, Repr

/-- The environment inputs of one command (spec/00_scope.md R14; 92_eei_decisions.md, Environment inputs; log 3). -/
structure EnvInputs where
  /-- `env(counter)`: the live counter, read by `TS_TIME`. -/
  counter : Word64
  /-- `env(ll_status)`: the lower layer's return code, read by `TP_SEND`. -/
  llStatus : BitVec 32
deriving DecidableEq, Repr

/-- What the outside presents to the block. -/
inductive HostInput where
  /-- One command transaction, with the environment inputs it is executed under. -/
  | command (tx : Transaction) (env : EnvInputs)
  /-- The integration's reset input (spec/70_reset_and_hazards.md R360, log 12). -/
  | globalReset
deriving DecidableEq, Repr

/-! ## The machine state -/

/-- The state of FBP-CORE: the three sub-units' persistent state (R32), the open parameters (R364) and the command
port. `port`, `env`, `pos` and `responses` are the model's own fields (log 1, 2, 3). -/
structure State where
  /-- The OPEN parameters, fixed for the life of the block. -/
  params : Params
  /-- The framer (R34 to R41). -/
  framer : Framer
  /-- The Transport (R43 to R45). -/
  transport : Transport
  /-- The time-sync filter (R46 to R53). -/
  timeSync : TimeSync
  /-- The inputs presented and not yet taken, oldest first. -/
  port : List HostInput
  /-- The environment inputs of the command in execution. -/
  env : EnvInputs
  /-- The position in the command sequence (R31). -/
  pos : Nat
  /-- The responses produced, oldest first. -/
  responses : List Response
deriving DecidableEq, Repr

/-- Why the machine stops with a fault: never. The spec gives the block no trap and no fatal error
(spec/60_exceptions.md R326, R327), so the type has no constructor, and no step ends in a fault. Safe. -/
inductive Fault
deriving DecidableEq, Repr

/-- Why the model has no meaning for what is presented. -/
inductive Refusal where
  /-- An instruction that has no meaning in the model yet, raised by its arm of `exec`. Safe: the model stops. -/
  | notModelled (mnemonic : String)
  /-- The words presented are no command transaction (R110: not `NARG` argument words or not `LEN` payload bytes),
  raised by `step`. Safe: the model stops (log 7). -/
  | misframedTransaction
deriving DecidableEq, Repr

/-- The block right after the global reset, with given parameters and nothing presented yet (R360, R362). -/
def State.resetWith (p : Params) : State :=
  { params := p, framer := Framer.reset, transport := Transport.reset, timeSync := TimeSync.reset p.counterHz
    port := [], env := { counter := 0, llStatus := 0 }, pos := 0, responses := [] }

/-- The machine right after reset (R360), with the parameters of the spec's vectors (log 4). -/
def State.reset : State := State.resetWith Params.vectors

end Sys2Proof.Machine
end

