-- ==== Sys2Proof/Machine/Ops.lean ====
section
/-! DEFINITION. The shared operations: producing a response, failing with a status, taking the next input from the
port, the global reset, and the framer's buffer accesses. -/

namespace Sys2Proof.Machine

/-- What an instruction or a step answers. -/
abbrev Result := Host.Outcome State Fault Refusal

/-! ## Responses -/

/-- Produce the response of the command in execution (spec/30_encoding.md R110). -/
def respond (r : Response) (s : State) : State := { s with responses := s.responses ++ [r] }

/-- Complete a command with status `OK` and its results, output and events (spec/60_exceptions.md R320). -/
def complete (res : List Word64) (out : List Byte) (events : List Event) (s : State) : Result :=
  .next (respond { status := .ok, res := res, out := out, events := events } s)

/-- `raise Status(code)`: end the command at once. Its results are zeros, its output and events are discarded and no
state is written (spec/00_scope.md R14; spec/60_exceptions.md R322). This is FBP-CORE's whole error entry: there is
no trap, and nothing to return from (R327). -/
def raise (st : Status) (nres : Nat) (s : State) : Result :=
  .next (respond { status := st, res := List.replicate nres 0, out := [], events := [] } s)

/-- `TP_SEND`'s failing status `LL_ERROR`, which is no `raise`: the result and the event stay
(spec/60_exceptions.md R336). -/
def completeLlError (res : List Word64) (events : List Event) (s : State) : Result :=
  .next (respond { status := .llError, res := res, out := [], events := events } s)

/-! ## The port -/

/-- Take a command from the port: the input is consumed, its environment inputs are those of the step, and the
position in the command sequence advances by exactly one (spec/10_state.md R31). -/
def acceptCommand (env : EnvInputs) (rest : List HostInput) (s : State) : State :=
  { s with port := rest, env := env, pos := s.pos + 1 }

/-- The response to a command the decoder rejects with ILLEGAL_COMMAND (spec/30_encoding.md R114, R115): zero results,
as many as the opcode has (R117). -/
def illegalCommand (opc : BitVec 8) (s : State) : Result := raise .illegalCommand (nresOf opc) s

/-- The global reset taken from the port: every state element goes to its reset value and the parameters stay
(spec/70_reset_and_hazards.md R360, R364; log 12). -/
def takeGlobalReset (rest : List HostInput) (s : State) : State :=
  { s with
    framer := Framer.reset, transport := Transport.reset, timeSync := TimeSync.reset s.params.counterHz, port := rest }

/-- Present an input to the block, so that the very next step takes it (log 13). -/
def present (x : HostInput) (s : State) : State := { s with port := x :: s.port }

/-! ## The framer's buffer -/

/-- `FR_BUF[i]`. No run reads at or beyond 269 (spec/20_memory.md R95, log 10). -/
def Framer.byteAt (fr : Framer) (i : Nat) : Byte := fr.buf.getD i (Config.strayByte i)

/-- `FR_BUF[i .. i+len-1]` (log 10). -/
def Framer.slice (fr : Framer) (i len : Nat) : List Byte := (fr.buf.toList.drop i).take len

/-- `FR_BUF[i] <- b`. No run writes at or beyond 269 (spec/20_memory.md R95, log 10). -/
def Framer.setByte (fr : Framer) (i : Nat) (b : Byte) : Framer := { fr with buf := fr.buf.setIfInBounds i b }

/-- `FR_BUF[i] <- b;  FR_N <- i + 1`: the shape of every store of the scanner. -/
def Framer.storeAt (fr : Framer) (i : Nat) (b : Byte) : Framer := { fr.setByte i b with n := i + 1 }

/-- `FR_IGNORED_BYTES <- wrapu64(FR_IGNORED_BYTES + 1)` (spec/41_framer.md R173). -/
def Framer.ignoreByte (fr : Framer) : Framer := { fr with ignoredBytes := fr.ignoredBytes + 1 }

end Sys2Proof.Machine
end

