-- ==== Sys2Proof/Machine/Control.lean ====
section
/-! DEFINITION. The control commands: NOP (spec/60_exceptions.md R337). -/

namespace Sys2Proof.Machine

/-- `NOP`: do nothing, answer `OK` (R337). -/
def execNop (s : State) : Result := complete [] [] [] s

end Sys2Proof.Machine
end

