-- ==== Sys2Proof/Machine/Generators.lean ====
section
/-! DEFINITION. The CRC generators (spec/40_crc.md R140 to R146, R151): pure functions, no state
(spec/10_state.md R33). -/

namespace Sys2Proof.Machine

/-- `SEED_8` (R140). -/
def seed8 : BitVec 8 := 0x00

/-- `SEED_16` (R140). -/
def seed16 : BitVec 16 := 0xFFFF

/-- `SEED_32` (R140). -/
def seed32 : BitVec 32 := 0x00000000

/-- One bit of CRC-8, most significant bit first, polynomial 0xD7 (R141). -/
def crc8Bit (c : BitVec 8) : BitVec 8 := if c.getLsbD 7 then (c <<< 1) ^^^ 0xD7 else c <<< 1

/-- One byte of CRC-8 (R141). -/
def crc8Byte (c : BitVec 8) (b : Byte) : BitVec 8 := Nat.iterate crc8Bit 8 (c ^^^ b)

/-- `crc8_update` (R141). -/
def crc8Update (c : BitVec 8) (data : List Byte) : BitVec 8 := data.foldl crc8Byte c

/-- `LENCRC[x]` (R142). -/
def lenCrc (x : Byte) : Byte := crc8Update seed8 [x]

/-- One bit of CRC-16, most significant bit first, polynomial 0x1021 (R144). -/
def crc16Bit (c : BitVec 16) : BitVec 16 := if c.getLsbD 15 then (c <<< 1) ^^^ 0x1021 else c <<< 1

/-- One byte of CRC-16 (R144). -/
def crc16Byte (c : BitVec 16) (b : Byte) : BitVec 16 :=
  Nat.iterate crc16Bit 8 (c ^^^ (b.setWidth 16 <<< 8))

/-- `crc16_update` (R144). -/
def crc16Update (c : BitVec 16) (data : List Byte) : BitVec 16 := data.foldl crc16Byte c

/-- One bit of CRC-32, least significant bit first, reflected polynomial 0xEDB88320 (R146). -/
def crc32Bit (c : BitVec 32) : BitVec 32 := if c.getLsbD 0 then (c >>> 1) ^^^ 0xEDB88320 else c >>> 1

/-- One byte of CRC-32 (R146). -/
def crc32Byte (c : BitVec 32) (b : Byte) : BitVec 32 := Nat.iterate crc32Bit 8 (c ^^^ b.setWidth 32)

/-- `crc32_update`, with the init and the xorout applied on each call (R146). -/
def crc32Update (c : BitVec 32) (data : List Byte) : BitVec 32 :=
  data.foldl crc32Byte (c ^^^ 0xFFFFFFFF) ^^^ 0xFFFFFFFF

/-- `FRAME_CRC` (R151): the default or the supplied function. -/
def frameCrc : FrameCrcChoice → List Byte → BitVec 32
  | .crc32, span => crc32Update seed32 span
  | .supplied, span => Config.suppliedFrameCrc span

end Sys2Proof.Machine
end

