-- ==== Sys2Proof/Machine/Operands.lean ====
section
/-! DEFINITION. Operand ranges, and the packed forms operands and frame fields take: the type/id bytes of a frame, the
metadata word of the Transport, little-endian wire words (spec/30_encoding.md R102 to R106, R113;
spec/42_transport.md R224, R231). -/

namespace Sys2Proof.Machine

/-- The whole argument word lies in 0 to `max` (R113). -/
def inRange (w : Word64) (max : Nat) : Bool := decide (w.toNat ≤ max)

/-- `FRAME_ID_MAX` (spec/00_scope.md R7). -/
def frameIdMax : Nat := 2047

/-- The `A` field names a port, 0 to 31 (R113). -/
def portInRange (a : BitVec 8) : Bool := decide (a.toNat ≤ 31)

/-! ## Frame types -/

/-- `DATA` (R102). -/
def typeData : BitVec 5 := 0x00

/-- `LINK_TYPES`: ACK_ALL, ACK_ONE, NACK_FRAME_ID, NACK_FRAMING_ERROR, RESET (R102). -/
def linkTypes : List (BitVec 5) := [0x0F, 0x17, 0x1B, 0x1D, 0x1E]

/-- A 5-bit type is a link type. -/
def isLinkType (t : BitVec 5) : Bool := linkTypes.contains t

/-- The `A` field holds a link type (R113); the whole 8-bit field is compared. -/
def linkTypeInRange (a : BitVec 8) : Bool := (linkTypes.map fun t => t.setWidth 8).contains a

/-! ## The type and id bytes of a frame -/

/-- Byte 2: `(frame_type << 3) | frame_id[10:8]` (R103). -/
def typeIdByte (t : BitVec 5) (id : BitVec 11) : Byte := t ++ id.extractLsb' 8 3

/-- Byte 3: `frame_id[7:0]` (R103). -/
def idByte (id : BitVec 11) : Byte := id.extractLsb' 0 8

/-- `frame_type = byte2[7:3]` (R103). -/
def frameTypeOf (byte2 : Byte) : BitVec 5 := byte2.extractLsb' 3 5

/-- `frame_id = {byte2[2:0], byte3}` (R103). -/
def frameIdOf (byte2 byte3 : Byte) : BitVec 11 := byte2.extractLsb' 0 3 ++ byte3

/-! ## Little-endian wire words -/

/-- A 16-bit word as two wire bytes, low byte first (R105). -/
def le16 (v : BitVec 16) : List Byte := [v.extractLsb' 0 8, v.extractLsb' 8 8]

/-- The 16-bit word of two wire bytes (R105). -/
def ofLe16 (b0 b1 : Byte) : BitVec 16 := b1 ++ b0

/-- A 32-bit word as four wire bytes, low byte first (R106). -/
def le32 (v : BitVec 32) : List Byte :=
  [v.extractLsb' 0 8, v.extractLsb' 8 8, v.extractLsb' 16 8, v.extractLsb' 24 8]

/-- The 32-bit word of four wire bytes (R106). -/
def ofLe32 (b0 b1 b2 b3 : Byte) : BitVec 32 := b3 ++ b2 ++ b1 ++ b0

/-! ## The Transport's metadata word -/

/-- `metadata = (seq << 6) | port_id | (port_data << 8)` (R224). Bit 5 is written 0. -/
def packMetadata (portId : BitVec 5) (seq : BitVec 2) (portData : BitVec 8) : BitVec 16 :=
  (seq.setWidth 16 <<< 6) ||| portId.setWidth 16 ||| (portData.setWidth 16 <<< 8)

/-- `port_id = md[4:0]` (R231). -/
def mdPortId (md : BitVec 16) : BitVec 5 := md.extractLsb' 0 5

/-- `seq = md[7:6]` (R231). -/
def mdSeq (md : BitVec 16) : BitVec 2 := md.extractLsb' 6 2

/-- `port_data = md[15:8]` (R231). -/
def mdPortData (md : BitVec 16) : BitVec 8 := md.extractLsb' 8 8

/-- Sequence tag codes (R225). -/
def seqMiddle : BitVec 2 := 0
/-- `STOP` (R225). -/
def seqStop : BitVec 2 := 1
/-- `START` (R225). -/
def seqStart : BitVec 2 := 2
/-- `SINGLE` (R225). -/
def seqSingle : BitVec 2 := 3

/-- The cached event codes DISCONNECTED, CONNECTED, TRANSPORT_CONNECTED, APP_CONNECTED (R227, R228). -/
def cachedEvents : List (BitVec 8) := [1, 2, 3, 4]

/-- A code is cached (R228). -/
def isCached (e : BitVec 8) : Bool := cachedEvents.contains e

/-! ## Slots of the two register files -/

/-- `TP_PORT[p]` (spec/10_state.md R43). -/
def Transport.slot (tp : Transport) (p : BitVec 5) : PortSlot := tp.ports[p.toNat]'(p.isLt)

/-- `TP_PORT[p] <- v`. -/
def Transport.setSlot (tp : Transport) (p : BitVec 5) (v : PortSlot) : Transport :=
  { tp with ports := tp.ports.set p.toNat v p.isLt }

/-- The port ids 0 to 31, ascending (R229). -/
def allPorts : List (BitVec 5) := (List.range 32).map (BitVec.ofNat 5)

/-- `TS_FIFO[k]` (spec/10_state.md R51). -/
def TimeSync.entry (ts : TimeSync) (k : BitVec 4) : Sample := ts.fifo[k.toNat]'(k.isLt)

/-- `TS_FIFO[k] <- v`. -/
def TimeSync.setEntry (ts : TimeSync) (k : BitVec 4) (v : Sample) : TimeSync :=
  { ts with fifo := ts.fifo.set k.toNat v k.isLt }

end Sys2Proof.Machine
end

