-- ==== Sys2Proof/Machine/Crc.lean ====
section
/-! DEFINITION. The CRC commands (spec/40_crc.md R147 to R150). They write no state. -/

namespace Sys2Proof.Machine

/-- `CRC8` (R147). -/
def execCrc8 (crcIn : Word64) (data : List Byte) (s : State) : Result :=
  if inRange crcIn 0xFF then complete [(crc8Update (crcIn.setWidth 8) data).setWidth 64] [] [] s
  else raise .paramInvalid 1 s

/-- `CRC16` (R148). -/
def execCrc16 (crcIn : Word64) (data : List Byte) (s : State) : Result :=
  if inRange crcIn 0xFFFF then complete [(crc16Update (crcIn.setWidth 16) data).setWidth 64] [] [] s
  else raise .paramInvalid 1 s

/-- `CRC32` (R149). -/
def execCrc32 (crcIn : Word64) (data : List Byte) (s : State) : Result :=
  if inRange crcIn 0xFFFFFFFF then complete [(crc32Update (crcIn.setWidth 32) data).setWidth 64] [] [] s
  else raise .paramInvalid 1 s

end Sys2Proof.Machine
end

