-- ==== Sys2Proof/Machine/Scanner.lean ====
section
/-! DEFINITION. The frame scanner, one byte at a time, and its replay loop (spec/41_framer.md R163 to R177). The wire
format is that of spec/30_encoding.md R100 to R109. -/

namespace Sys2Proof.Machine

/-- `SOF1`, and `EOF`, which has the same value (spec/00_scope.md R7; spec/30_encoding.md R107). -/
def sof1Byte : Byte := 0x55

/-- `SOF2` (spec/00_scope.md R7). -/
def sof2Byte : Byte := 0x00

/-- `HEADER_SIZE` (spec/00_scope.md R7). -/
def headerSize : Nat := 8

/-- `PAYLOAD_MAX` (spec/00_scope.md R7). -/
def payloadMax : Nat := 256

/-- `FOOTER_SIZE` (spec/00_scope.md R7). -/
def footerSize : Nat := 4

/-- `LINK_SIZE`, a link frame without its EOF (spec/00_scope.md R7). -/
def linkSize : Nat := 8

/-- `BUF_SIZE = HEADER_SIZE + PAYLOAD_MAX + FOOTER_SIZE + 1` (spec/00_scope.md R8). -/
def bufSize : Nat := headerSize + payloadMax + footerSize + 1

/-- What one call of a scanner rule gives: the framer, the events it emits, the bytes it puts back in front of the
pending queue. -/
structure ScanStep where
  /-- The framer after the rule. -/
  framer : Framer
  /-- The events emitted, in order. -/
  events : List Event
  /-- The replay list (R164). -/
  replay : List Byte
deriving DecidableEq, Repr

/-- `fr_error()`: signal a framing error, once per desync episode (R172). -/
def frError (fr : Framer) : Framer × List Event :=
  if fr.isSync then ({ fr with isSync := false, resyncCount := fr.resyncCount + 1 }, [.frError])
  else (fr, [])

/-- `fr_resync()`: give up the candidate frame and re-scan its bytes after the first (R175). -/
def frResync (fr : Framer) : ScanStep :=
  let (fr1, events) := frError fr
  { framer := { fr1.ignoreByte with state := .sof1, n := 0, target := 0 }
    events := events
    replay := fr.slice 1 (fr.n - 1) }

/-- The event of a validated frame of total length `T = FR_TARGET` (R174, R176). -/
def frameEvent (fr : Framer) : Event :=
  let id := frameIdOf (fr.byteAt 2) (fr.byteAt 3)
  if frameTypeOf (fr.byteAt 2) = typeData then
    .frData id (ofLe16 (fr.byteAt 6) (fr.byteAt 7)) (fr.slice 8 (fr.target - 13))
  else .frLink (frameTypeOf (fr.byteAt 2)) id

/-- `fr_dispatch()`: deliver a validated frame; its EOF stays as the next frame's SOF1 (R174). -/
def frDispatch (fr : Framer) : ScanStep :=
  { framer := { fr.setByte 0 sof1Byte with isSync := true, n := 1, target := 0, state := .sof2 }
    events := [frameEvent fr]
    replay := [] }

/-- No event and no replay. -/
def quiet (fr : Framer) : ScanStep := { framer := fr, events := [], replay := [] }

/-- State `SOF1` (R165). -/
def stepSof1 (fr : Framer) (b : Byte) : ScanStep :=
  if b = sof1Byte then quiet { fr.storeAt 0 b with state := .sof2 }
  else
    let (fr1, events) := frError fr
    { framer := fr1.ignoreByte, events := events, replay := [] }

/-- State `SOF2`: a repeated SOF1 is padding, counted as ignored (R166). -/
def stepSof2 (fr : Framer) (b : Byte) : ScanStep :=
  if b = sof2Byte then quiet { fr.storeAt 1 b with state := .frameType }
  else if b = sof1Byte then quiet fr.ignoreByte
  else frResync (fr.storeAt 1 b)

/-- State `FRAME_TYPE` (R167, R168). -/
def stepFrameType (fr : Framer) (b : Byte) : ScanStep :=
  let fr1 := fr.storeAt 2 b
  if frameTypeOf b = typeData then quiet { fr1 with state := .dataHeader }
  else if isLinkType (frameTypeOf b) then quiet { fr1 with target := linkSize + 1, state := .store }
  else frResync fr1

/-- State `DATA_HEADER`: store the byte; with six bytes held, check the length CRC (R169, R170). -/
def stepDataHeader (fr : Framer) (b : Byte) : ScanStep :=
  let fr1 := fr.storeAt fr.n b
  if fr1.n < 6 then quiet fr1
  else if fr1.byteAt 5 ≠ lenCrc (fr1.byteAt 4) then frResync fr1
  else quiet { fr1 with target := (fr1.byteAt 4).toNat + 14, state := .store }

/-- The frame CRC a complete candidate carries, from its four bytes before the EOF (R171). -/
def receivedCrc (fr : Framer) : BitVec 32 :=
  let t := fr.target
  ofLe32 (fr.byteAt (t - 5)) (fr.byteAt (t - 4)) (fr.byteAt (t - 3)) (fr.byteAt (t - 2))

/-- The span a complete candidate's frame CRC covers, `FR_BUF[2 .. T-6]` (R171). -/
def crcSpan (fr : Framer) : List Byte := fr.slice 2 (fr.target - 7)

/-- State `STORE`: store the byte; with the candidate complete, check its EOF and its frame CRC (R171). -/
def stepStore (crc : List Byte → BitVec 32) (fr : Framer) (b : Byte) : ScanStep :=
  let fr1 := fr.storeAt fr.n b
  if fr1.n < fr1.target then quiet fr1
  else if fr1.byteAt (fr1.target - 1) ≠ sof1Byte then frResync fr1
  else if crc (crcSpan fr1) ≠ receivedCrc fr1 then frResync fr1
  else frDispatch fr1

/-- `fr_step(b)`: one byte, by the parse state (R164). -/
def frStep (crc : List Byte → BitVec 32) (fr : Framer) (b : Byte) : ScanStep :=
  match fr.state with
  | .sof1 => stepSof1 fr b
  | .sof2 => stepSof2 fr b
  | .frameType => stepFrameType fr b
  | .dataHeader => stepDataHeader fr b
  | .store => stepStore crc fr b

/-- What the replay loop gives. -/
structure ScanResult where
  /-- The framer at the end of the loop. -/
  framer : Framer
  /-- The events emitted, in order. -/
  events : List Event
  /-- The pending bytes left; none whenever the bound is `scanBound` (Laws/Scanner.lean, `scan_drains`). -/
  pending : List Byte
deriving DecidableEq, Repr

/-- The loop of R161: take the pending queue's first byte, process it, put its replay in front, until the queue is
empty, in at most the given number of steps. -/
def scan (crc : List Byte → BitVec 32) : Nat → Framer → List Byte → ScanResult
  | _, fr, [] => { framer := fr, events := [], pending := [] }
  | 0, fr, b :: q => { framer := fr, events := [], pending := b :: q }
  | k + 1, fr, b :: q =>
    let r := frStep crc fr b
    let rest := scan crc k r.framer (r.replay ++ q)
    { framer := rest.framer, events := r.events ++ rest.events, pending := rest.pending }

/-- A number of steps that empties the queue from every state, over `len` received bytes (log 11). From a state that a
run reaches R177's `(LEN + FR_N)^2` suffices. -/
def scanBound (len : Nat) : Nat := (len + bufSize + 1) ^ 2

end Sys2Proof.Machine
end

