-- ==== Sys2Proof/Machine/Framer.lean ====
section
/-! DEFINITION. The framer's commands (spec/41_framer.md R160 to R162, R180, R181). -/

namespace Sys2Proof.Machine

/-- `FR_RESET`: every framer element to its reset value but `FR_BUF`, which is left as it is (R160). -/
def execFrReset (s : State) : Result :=
  complete [] [] [] { s with framer := { Framer.reset with buf := s.framer.buf } }

/-- `FR_RECV`: count the received bytes and scan them (R161, R163). -/
def execFrRecv (data : List Byte) (s : State) : Result :=
  let fr := { s.framer with totalBytes := s.framer.totalBytes + BitVec.ofNat 64 data.length }
  let r := scan (frameCrc s.params.frameCrc) (scanBound data.length) fr data
  complete [] [] r.events { s with framer := r.framer }

/-- `FR_STATUS`: the three statistics; reading does not clear (R162). -/
def execFrStatus (s : State) : Result :=
  complete [s.framer.totalBytes, s.framer.ignoredBytes, s.framer.resyncCount] [] [] s

/-- The checked body of a frame followed by its CRC, little-endian, and the EOF, after the two SOF bytes
(spec/30_encoding.md R100, R101, R106, R107). -/
def sealFrame (crc : List Byte → BitVec 32) (body : List Byte) : List Byte :=
  [sof1Byte, sof2Byte] ++ body ++ le32 (crc body) ++ [sof1Byte]

/-- The bytes of a data frame from its type/id byte through its payload (R180). -/
def dataBody (id : BitVec 11) (md : BitVec 16) (payload : List Byte) : List Byte :=
  let lenByte := BitVec.ofNat 8 (payload.length - 1)
  [typeIdByte typeData id, idByte id, lenByte, lenCrc lenByte] ++ le16 md ++ payload

/-- The type/id bytes of a link frame (R181). -/
def linkBody (t : BitVec 5) (id : BitVec 11) : List Byte := [typeIdByte t id, idByte id]

/-- `FR_CONSTRUCT_DATA`, its checks in the order of R180. -/
def execFrConstructData (frameId metadata : Word64) (data : List Byte) (s : State) : Result :=
  if inRange frameId frameIdMax && inRange metadata 0xFFFF
      && decide (1 ≤ data.length) && decide (data.length ≤ payloadMax) then
    complete [] (sealFrame (frameCrc s.params.frameCrc) (dataBody (frameId.setWidth 11) (metadata.setWidth 16) data))
      [] s
  else raise .paramInvalid 0 s

/-- `FR_CONSTRUCT_LINK`, its checks in the order of R181. -/
def execFrConstructLink (a : BitVec 8) (frameId : Word64) (s : State) : Result :=
  if linkTypeInRange a && inRange frameId frameIdMax then
    complete [] (sealFrame (frameCrc s.params.frameCrc) (linkBody (a.setWidth 5) (frameId.setWidth 11))) [] s
  else raise .paramInvalid 0 s

end Sys2Proof.Machine
end

