-- ==== Sys2Proof/Machine/Filter.lean ====
section
/-! DEFINITION. The time-sync filter on mathematical integers (spec/43_timesync.md R263 to R277). Each function is one
rule's block of formulas, narrowed only where the rule narrows. -/

namespace Sys2Proof.Machine

/-! ## Constants (R263) -/

/-- `QSTD`: 10 ppb in FX scale units, `TIME_PROCESS_STD` and `SCALE_PROCESS_STD`. -/
def qStd : Int := 46116860184

/-- `P0_TT`. -/
def p0TT : Int := 2 ^ 72

/-- `P0_TS`. -/
def p0TS : Int := 0

/-- `P0_SS`. -/
def p0SS : Int := 2 ^ 66

/-- `R_MIN`. -/
def rMin : Int := 2 ^ 32

/-- `RESYNC_THRESHOLD`, one second in Q34.30. -/
def resyncThreshold : Int := 2 ^ 30

/-! ## Samples -/

/-- A sample derived from a round trip (R266): mean counter, mean remote time, one-way delay. -/
structure RoundTrip where
  /-- `c`. -/
  c : Int
  /-- `t`. -/
  t : Int
  /-- `dcnt`. -/
  dcnt : Int
deriving DecidableEq, Repr

/-- The sample of a round trip (R266). -/
def roundTrip (stx trx ttx srx : Int) : RoundTrip :=
  { c := stx + floorDiv (srx - stx) 2, t := trx + floorDiv (ttx - trx) 2, dcnt := floorDiv (srx - stx) 2 }

/-- `TS_FIFO[TS_HEAD] <- sample;  TS_HEAD <- (TS_HEAD + 1) mod 16` (R266). -/
def TimeSync.push (ts : TimeSync) (x : RoundTrip) : TimeSync :=
  { ts.setEntry ts.head { counter := wrapu64 x.c, time := wrapu64 x.t, dcounter := wrapu64 x.dcnt } with
    head := ts.head + 1 }

/-- `time_at(c)`: the time the coefficients give for a counter value (R264). -/
def TimeSync.timeAt (ts : TimeSync) (c : Int) : Int :=
  sat64 (s64 ts.timeOffset + floorDiv ((c - u64 ts.counterOffset) * u64 ts.scale) (2 ^ 32))

/-- `min(TS_NHIST + 1, M)` (R275, R277). -/
def nextNhist (m : Nat) (n : BitVec 4) : BitVec 4 := BitVec.ofNat 4 (min (n.toNat + 1) m)

/-! ## Bootstrap (R270) -/

/-- The bootstrap from a sample (R270). -/
def TimeSync.bootstrap (ts : TimeSync) (f : Nat) (x : RoundTrip) : TimeSync :=
  { ts with
    counterOffset := wrapu64 x.c, timeOffset := wrapu64 x.t, ds := 0, scale := wrapu64 (scaleNom f)
    pTT := toFx p0TT, pTS := toFx p0TS, pSS := toFx p0SS, nhist := 1 }

/-! ## Predict and correct (R272 to R277) -/

/-- A symmetric 2×2 covariance (spec/10_state.md R50). -/
structure Cov where
  /-- The time variance. -/
  tt : Int
  /-- The covariance. -/
  ts : Int
  /-- The scale variance. -/
  ss : Int
deriving DecidableEq, Repr

/-- The stored covariance. -/
def TimeSync.cov (ts : TimeSync) : Cov := { tt := ts.pTT.toInt, ts := ts.pTS.toInt, ss := ts.pSS.toInt }

/-- Store a covariance. -/
def TimeSync.setCov (ts : TimeSync) (p : Cov) : TimeSync :=
  { ts with pTT := toFx p.tt, pTS := toFx p.ts, pSS := toFx p.ss }

/-- `D`, the elapsed time of `dc` ticks in FX seconds (R272). -/
def elapsed (f : Nat) (dc : Int) : Int := floorDiv (dc * 2 ^ 32) f

/-- The predicted covariance after the elapsed time `d` (R273). -/
def predictCov (d : Int) (p : Cov) : Cov :=
  let qd := fxmul qStd d
  let qq := fxmul qd qd
  { tt := sat128 (p.tt + 2 * fxmul d p.ts + fxmul (fxmul d d) p.ss + qq)
    ts := sat128 (p.ts + fxmul d p.ss)
    ss := sat128 (p.ss + qq) }

/-- The two innovations and the two measurement variances (R274). -/
structure Measurement where
  /-- `yt`, the time innovation. -/
  yt : Int
  /-- `Rtt`. -/
  rtt : Int
  /-- `ys`, the scale innovation. -/
  ys : Int
  /-- `Rss`. -/
  rss : Int
deriving DecidableEq, Repr

/-- Measurement and measurement noise of a sample against a reference entry (R274). -/
def measurement (f : Nat) (x : RoundTrip) (ref : Sample) (tp ds : Int) : Measurement :=
  let sigT := floorDiv (x.dcnt * 2 ^ 62) f
  let dkr := x.c - u64 ref.counter
  let tkr := x.t - s64 ref.time
  let zs := floorDiv (tkr * f * 2 ^ 32 - dkr * 2 ^ 62) dkr
  let sigS := floorDiv ((x.dcnt + u64 ref.dcounter) * 2 ^ 62) dkr
  { yt := (x.t - tp) * 2 ^ 32
    rtt := max (fxmul sigT sigT) rMin
    ys := sat128 (zs - ds)
    rss := max (fxmul sigS sigS) rMin }

/-- The innovation covariance (R275). -/
def innovationCov (p : Cov) (m : Measurement) : Cov :=
  { tt := sat128 (p.tt + m.rtt), ts := p.ts, ss := sat128 (p.ss + m.rss) }

/-- The determinant of the innovation covariance (R275). -/
def determinant (s : Cov) : Int := sat128 (fxmul s.tt s.ss - fxmul s.ts s.ts)

/-- The 2×2 gain (R276). -/
structure Gain where
  /-- `ktt`. -/
  tt : Int
  /-- `kts`. -/
  ts : Int
  /-- `kst`. -/
  st : Int
  /-- `kss`. -/
  ss : Int
deriving DecidableEq, Repr

/-- `K = P'·S⁻¹` in closed form (R276). -/
def gain (p s : Cov) (det : Int) : Gain :=
  { tt := fxdiv (sat128 (fxmul p.tt s.ss - fxmul p.ts s.ts)) det
    ts := fxdiv (sat128 (fxmul p.ts s.tt - fxmul p.tt s.ts)) det
    st := fxdiv (sat128 (fxmul p.ts s.ss - fxmul p.ss s.ts)) det
    ss := fxdiv (sat128 (fxmul p.ss s.tt - fxmul p.ts s.ts)) det }

/-- `dtau`, the time correction (R276). -/
def timeCorrection (k : Gain) (m : Measurement) : Int := sat128 (fxmul k.tt m.yt + fxmul k.ts m.ys)

/-- `dsig`, the scale correction (R276). -/
def scaleCorrection (k : Gain) (m : Measurement) : Int := sat128 (fxmul k.st m.yt + fxmul k.ss m.ys)

/-- The corrected covariance (R276). -/
def correctCov (k : Gain) (p : Cov) : Cov :=
  { tt := sat128 (p.tt - (fxmul k.tt p.tt + fxmul k.ts p.ts))
    ts := sat128 (p.ts - (fxmul k.tt p.ts + fxmul k.ts p.ss))
    ss := sat128 (p.ss - (fxmul k.st p.ts + fxmul k.ss p.ss)) }

/-- The commit of a full correction (R277). -/
def TimeSync.commit (ts : TimeSync) (p : Params) (x : RoundTrip) (tp dtau dsig : Int) (cov : Cov) : TimeSync :=
  let ds := sat128 (ts.ds.toInt + dsig)
  { ts.setCov cov with
    timeOffset := wrapu64 (sat64 (tp + floorDiv dtau (2 ^ 32)))
    ds := toFx ds
    counterOffset := wrapu64 x.c
    scale := wrapu64 (scaleOf p.counterHz ds)
    nhist := nextNhist p.updateProcessMax ts.nhist }

/-- The commit of the prediction alone, when the innovation covariance is singular (R275). -/
def TimeSync.commitPrediction (ts : TimeSync) (p : Params) (x : RoundTrip) (tp : Int) (cov : Cov) : TimeSync :=
  { ts.setCov cov with
    timeOffset := wrapu64 tp, counterOffset := wrapu64 x.c, nhist := nextNhist p.updateProcessMax ts.nhist }

/-! ## The outcome codes (R269) -/

/-- 0: filtered, a full Kalman correction was committed. -/
def outFiltered : Word64 := 0
/-- 1: rejected, the remote has no time. -/
def outNoTime : Word64 := 1
/-- 2: rejected, non-monotonic. -/
def outNonMonotonic : Word64 := 2
/-- 3: rejected, the counter does not advance. -/
def outNotAdvancing : Word64 := 3
/-- 4: bootstrapped. -/
def outBootstrapped : Word64 := 4
/-- 5: force-resync, history discarded. -/
def outResync : Word64 := 5
/-- 6: predicted only. -/
def outPredicted : Word64 := 6

/-! ## The filter step -/

/-- The predict-and-correct step on the filter after the push of sample `x` into slot `k` (R271 to R277). -/
def predictCorrect (p : Params) (k : BitVec 4) (x : RoundTrip) (ts : TimeSync) : TimeSync × Word64 :=
  let ref := ts.entry (k - ts.nhist)
  let d := elapsed p.counterHz (x.c - u64 ts.counterOffset)
  let tp := ts.timeAt x.c
  if |x.t - tp| > resyncThreshold then ({ ts with nhist := 0 }, outResync)
  else
    let cov := predictCov d ts.cov
    let m := measurement p.counterHz x ref tp ts.ds.toInt
    let s := innovationCov cov m
    let det := determinant s
    if det ≤ 0 then (ts.commitPrediction p x tp cov, outPredicted)
    else
      let g := gain cov s det
      (ts.commit p x tp (timeCorrection g m) (scaleCorrection g m) (correctCov g cov), outFiltered)

/-- The filter step, `process_one`, on the sample just pushed into slot `k` (R269). -/
def filterStep (p : Params) (k : BitVec 4) (x : RoundTrip) (ts : TimeSync) : TimeSync × Word64 :=
  if ts.nhist = 0 then (ts.bootstrap p.counterHz x, outBootstrapped) else predictCorrect p k x ts

/-- Take in one round-trip sample: the rejections, the push, the filter step (R265, R266, R269). -/
def updateFilter (p : Params) (stx trx ttx srx : Int) (ts : TimeSync) : TimeSync × Word64 :=
  if trx = 0 ∨ ttx = 0 then (ts, outNoTime)
  else if stx > srx ∨ trx > ttx then (ts, outNonMonotonic)
  else
    let x := roundTrip stx trx ttx srx
    if ts.nhist ≠ 0 ∧ x.c ≤ u64 (ts.entry (ts.head - 1)).counter then (ts, outNotAdvancing)
    else filterStep p ts.head x (ts.push x)

end Sys2Proof.Machine
end

