-- ==== Sys2Proof/Machine/Flags.lean ====
section
/-! DEFINITION. The status flags (spec/10_state.md R56): the time-sync flag, the flag word of `TS_READ` and the numeric
status codes. There are no condition codes. -/

namespace Sys2Proof.Machine

/-- The 8-bit code of a status (spec/60_exceptions.md R320). -/
def Status.code : Status → BitVec 8
  | .ok => 0
  | .paramInvalid => 1
  | .illegalCommand => 2
  | .llError => 3

/-- The numeric code of a parse state (spec/10_state.md R34). -/
def ParseState.code : ParseState → Nat
  | .sof1 => 0
  | .sof2 => 1
  | .frameType => 2
  | .dataHeader => 3
  | .store => 4

/-- `TS_SYNCED = (TS_NHIST > 0)` (R56). -/
def TimeSync.synced (ts : TimeSync) : Bool := decide (0 < ts.nhist.toNat)

/-- `RES[3]` of `TS_READ`: bit 0 is `TS_SYNCED`, bits 7:4 are `TS_NHIST`, every other bit is 0
(spec/43_timesync.md R278). -/
def TimeSync.flagWord (ts : TimeSync) : Word64 :=
  (if ts.synced then 1 else 0) ||| (ts.nhist.setWidth 64 <<< 4)

end Sys2Proof.Machine
end

