-- ==== Sys2Proof/Machine/TimeSync.lean ====
section
/-! DEFINITION. The time-sync commands (spec/43_timesync.md R265, R278 to R280). -/

namespace Sys2Proof.Machine

/-- `TS_RESET`: the filter to its reset values (R280). -/
def execTsReset (s : State) : Result :=
  complete [] [] [] { s with timeSync := TimeSync.reset s.params.counterHz }

/-- `TS_UPDATE`: always `OK`, with the outcome code as its result (R265, R269). -/
def execTsUpdate (srcTx tgtRx tgtTx srcRx : Word64) (s : State) : Result :=
  let r := updateFilter s.params (u64 srcTx) (s64 tgtRx) (s64 tgtTx) (u64 srcRx) s.timeSync
  complete [r.2] [] [] { s with timeSync := r.1 }

/-- `TS_TIME`: the time of the live counter (R279). -/
def execTsTime (s : State) : Result :=
  complete [wrapu64 (s.timeSync.timeAt (u64 s.env.counter))] [] [] s

/-- `TS_READ`: the coefficients and the flags (R278). -/
def execTsRead (s : State) : Result :=
  complete [s.timeSync.timeOffset, s.timeSync.counterOffset, s.timeSync.scale, s.timeSync.flagWord] [] [] s

end Sys2Proof.Machine
end

