-- ==== Sys2Proof/Machine/Transport.lean ====
section
/-! DEFINITION. The Transport's commands (spec/42_transport.md R221 to R232). -/

namespace Sys2Proof.Machine

/-- The replay of the last connection event to a registrant with an event handler, and to nobody else (R230). -/
def replayEvent (evEn : Bool) (dest : Dest) (userData : Word64) (lastEvent : BitVec 8) : List Event :=
  if evEn then [.portEvent dest userData lastEvent] else []

/-- `TP_REGISTER` (R221). -/
def execTpRegister (a : BitVec 8) (flags userData portMeta : Word64) (s : State) : Result :=
  if portInRange a && inRange flags 3 then
    let p : BitVec 5 := a.setWidth 5
    let slot : PortSlot :=
      { evEn := flags.getLsbD 0, rxEn := flags.getLsbD 1, userData := userData, portMeta := portMeta }
    complete [] [] (replayEvent slot.evEn (.port p) userData s.transport.lastEvent)
      { s with transport := s.transport.setSlot p slot }
  else raise .paramInvalid 0 s

/-- `TP_REGISTER_DEFAULT` (R223). -/
def execTpRegisterDefault (flags userData : Word64) (s : State) : Result :=
  if inRange flags 3 then
    let slot : DefaultSlot := { evEn := flags.getLsbD 0, rxEn := flags.getLsbD 1, userData := userData }
    complete [] [] (replayEvent slot.evEn .dflt userData s.transport.lastEvent)
      { s with transport := { s.transport with deflt := slot } }
  else raise .paramInvalid 0 s

/-- `TP_SEND`: pack the metadata, hand the message to the lower layer, return its code; a nonzero code is `LL_ERROR`,
which keeps the event and the result (R226; spec/60_exceptions.md R336). -/
def execTpSend (a : BitVec 8) (seq portData : Word64) (data : List Byte) (s : State) : Result :=
  if portInRange a && inRange seq 3 && inRange portData 0xFF then
    let md := packMetadata (a.setWidth 5) (seq.setWidth 2) (portData.setWidth 8)
    let res := [s.env.llStatus.setWidth 64]
    if s.env.llStatus = 0 then complete res [] [.llSend md data] s
    else completeLlError res [.llSend md data] s
  else raise .paramInvalid 1 s

/-- The fan-out of an event: every port with an event handler, ascending, then the default (R229). -/
def fanOut (tp : Transport) (e : BitVec 8) : List Event :=
  (allPorts.filterMap fun p =>
      if (tp.slot p).evEn then some (.portEvent (.port p) (tp.slot p).userData e) else none)
    ++ (if tp.deflt.evEn then [.portEvent .dflt tp.deflt.userData e] else [])

/-- `TP_EVENT`: cache a connection event, then fan the event out (R228, R229). -/
def execTpEvent (a : BitVec 8) (s : State) : Result :=
  let tp := if isCached a then { s.transport with lastEvent := a } else s.transport
  complete [] [] (fanOut tp a) { s with transport := tp }

/-- The delivery of a received message: to its port, else to the default, else dropped (R232). -/
def deliver (tp : Transport) (md : BitVec 16) (msg : List Byte) : List Event :=
  let p := mdPortId md
  if (tp.slot p).rxEn then
    [.portRecv (.port p) (tp.slot p).userData p (mdSeq md) (mdPortData md) msg]
  else if tp.deflt.rxEn then [.portRecv .dflt tp.deflt.userData p (mdSeq md) (mdPortData md) msg]
  else []

/-- `TP_RECV` (R232). -/
def execTpRecv (metadata : Word64) (data : List Byte) (s : State) : Result :=
  if inRange metadata 0xFFFF then complete [] [] (deliver s.transport (metadata.setWidth 16) data) s
  else raise .paramInvalid 0 s

end Sys2Proof.Machine
end

