-- ==== Sys2Proof/Machine/Dispatch.lean ====
section
/-! DEFINITION. The meaning of every command: one arm per constructor of Instr. -/

namespace Sys2Proof.Machine

/-- The effect of one command of the opcode map (spec/30_encoding.md R112). -/
def exec (i : Instr) (s : State) : Host.Outcome State Fault Refusal :=
  match i with
  | .nop => Sys2Proof.Machine.execNop s
  | .crc8 crcIn data => Sys2Proof.Machine.execCrc8 crcIn data s
  | .crc16 crcIn data => Sys2Proof.Machine.execCrc16 crcIn data s
  | .crc32 crcIn data => Sys2Proof.Machine.execCrc32 crcIn data s
  | .frReset => Sys2Proof.Machine.execFrReset s
  | .frRecv data => Sys2Proof.Machine.execFrRecv data s
  | .frStatus => Sys2Proof.Machine.execFrStatus s
  | .frConstructData frameId metadata data => Sys2Proof.Machine.execFrConstructData frameId metadata data s
  | .frConstructLink a frameId => Sys2Proof.Machine.execFrConstructLink a frameId s
  | .tpRegister a flags userData portMeta => Sys2Proof.Machine.execTpRegister a flags userData portMeta s
  | .tpRegisterDefault flags userData => Sys2Proof.Machine.execTpRegisterDefault flags userData s
  | .tpSend a seq portData data => Sys2Proof.Machine.execTpSend a seq portData data s
  | .tpEvent a => Sys2Proof.Machine.execTpEvent a s
  | .tpRecv metadata data => Sys2Proof.Machine.execTpRecv metadata data s
  | .tsReset => Sys2Proof.Machine.execTsReset s
  | .tsUpdate srcTx tgtRx tgtTx srcRx => Sys2Proof.Machine.execTsUpdate srcTx tgtRx tgtTx srcRx s
  | .tsTime => Sys2Proof.Machine.execTsTime s
  | .tsRead => Sys2Proof.Machine.execTsRead s

end Sys2Proof.Machine
end

