-- ==== Sys2Proof/Machine/Step.lean ====
section
/-! DEFINITION. One step of the machine: take the next input of the command port and execute it to completion
(spec/00_scope.md R3; spec/20_memory.md R86). -/

namespace Sys2Proof.Machine

/-- One step. With nothing presented the block waits (spec/70_reset_and_hazards.md R362, log 1). A command is consumed
whole and exactly once, whatever its status (spec/10_state.md R31). -/
def step (s : State) : Host.Outcome State Fault Refusal :=
  match s.port with
  | [] => .next s
  | .globalReset :: rest => .next (takeGlobalReset rest s)
  | .command tx env :: rest =>
    let s1 := acceptCommand env rest s
    match decode tx with
    | .ok i => exec i s1
    | .error (.unassignedOpcode opc) => illegalCommand opc s1
    | .error (.reservedField opc) => illegalCommand opc s1
    | .error .misframed => .refused .misframedTransaction

/-- `s` with the command of the bits `w` presented as the next input (log 13). -/
def State.withFetchWord (s : State) (nbits w : Nat) : State :=
  present (.command (Transaction.ofBits (w % 2 ^ nbits)) s.env) s

end Sys2Proof.Machine
end

