-- ==== Sys2Proof/Machine/Assembler.lean ====
section
/-! DEFINITION. The assembler syntax and the pseudo-commands (spec/30_encoding.md R119, R120): a line of text to the
transaction it encodes. What R119 leaves to a reader of lines (white space, letter case) is log 15. -/

namespace Sys2Proof.Machine

/-- A token of a line. -/
inductive Token where
  /-- A mnemonic, an operand name, a number or a symbolic value. -/
  | word (w : String)
  /-- `,` -/
  | comma
  /-- `=` -/
  | equals
  /-- `[..]` or `"..."`: a list of payload bytes. -/
  | bytes (bs : List Byte)
deriving DecidableEq, Repr

/-! ## Numbers and symbolic values -/

/-- The value of a decimal or hexadecimal digit. -/
def digit? (c : Char) : Option Nat :=
  let n := c.toNat
  if 48 ≤ n && n ≤ 57 then some (n - 48)
  else if 65 ≤ n && n ≤ 70 then some (n - 55)
  else if 97 ≤ n && n ≤ 102 then some (n - 87)
  else none

/-- A digit string in a base of at most 16, after an accumulated value; any number of digits, leading zeros among them
(DESIGN CHOICE, log 15). -/
def digits? (base : Nat) (acc : Nat) : List Char → Option Nat
  | [] => some acc
  | c :: cs =>
    match digit? c with
    | some d => if d < base then digits? base (base * acc + d) cs else none
    | none => none

/-- A number, decimal, or hexadecimal with `0x` (R119). -/
def number? (w : List Char) : Option Nat :=
  match w with
  | [] => none
  | '0' :: 'x' :: c :: cs => digits? 16 0 (c :: cs)
  | cs => digits? 10 0 cs

/-- The symbolic values (R119; R102; spec/42_transport.md R225, R227). -/
def symbols : List (String × Nat) :=
  [("DATA", 0x00), ("ACK_ALL", 0x0F), ("ACK_ONE", 0x17), ("NACK_FRAME_ID", 0x1B)] ++
  [("NACK_FRAMING_ERROR", 0x1D), ("RESET", 0x1E), ("MIDDLE", 0), ("STOP", 1), ("START", 2), ("SINGLE", 3)] ++
  [("DISCONNECTED", 1), ("CONNECTED", 2), ("TRANSPORT_CONNECTED", 3), ("APP_CONNECTED", 4)]

/-- The number an operand value stands for. -/
def value? (w : String) : Option Nat :=
  match symbols.lookup w with
  | some n => some n
  | none => number? w.toList

/-! ## Tokens of a line -/

/-- Where the lexer stands. -/
inductive LexMode where
  /-- Between tokens or in a word. -/
  | plain
  /-- Inside `[..]`. -/
  | bracket
  /-- Inside `"..."`. -/
  | quote
  /-- After `;`. -/
  | comment
  /-- After a character that can stand nowhere. -/
  | failed
deriving DecidableEq, Repr

/-- The lexer's state; words, bytes and tokens are collected last first. -/
structure Lexer where
  /-- Where it stands. -/
  mode : LexMode
  /-- The characters of the word at hand. -/
  word : List Char
  /-- The bytes of the list at hand. -/
  bytes : List Byte
  /-- The tokens so far. -/
  toks : List Token

/-- White space. -/
def isBlank (c : Char) : Bool := c = ' ' || c = '\t' || c = '\r'

/-- Close the word at hand. -/
def Lexer.endWord (x : Lexer) : Lexer :=
  if x.word.isEmpty then x
  else { x with word := [], toks := .word (String.ofList x.word.reverse) :: x.toks }

/-- Close the byte at hand inside a bracket: hexadecimal digits, one or more, of a value below 256. R119 does not say
how many digits a byte has: any number of them is taken, so `1`, `01` and `001` are one byte (DESIGN CHOICE, log 15). -/
def Lexer.endByte (x : Lexer) : Lexer :=
  if x.word.isEmpty then x
  else match digits? 16 0 x.word.reverse with
    | some n =>
      if n < 256 then { x with word := [], bytes := BitVec.ofNat 8 n :: x.bytes } else { x with mode := .failed }
    | none => { x with mode := .failed }

/-- Close the byte list at hand. -/
def Lexer.endBytes (x : Lexer) : Lexer :=
  { x with mode := .plain, bytes := [], toks := .bytes x.bytes.reverse :: x.toks }

/-- One character. -/
def Lexer.next (x : Lexer) (c : Char) : Lexer :=
  match x.mode with
  | .plain =>
    if isBlank c then x.endWord
    else if c = ',' then { x.endWord with toks := .comma :: x.endWord.toks }
    else if c = '=' then { x.endWord with toks := .equals :: x.endWord.toks }
    else if c = '[' then { x.endWord with mode := .bracket }
    else if c = '"' then { x.endWord with mode := .quote }
    else if c = ';' then { x.endWord with mode := .comment }
    else { x with word := c :: x.word }
  | .bracket =>
    if isBlank c then x.endByte
    else if c = ']' then (if x.endByte.mode = .failed then x.endByte else x.endByte.endBytes)
    else { x with word := c :: x.word }
  | .quote =>
    if c = '"' then x.endBytes
    else if c.toNat < 128 then { x with bytes := BitVec.ofNat 8 c.toNat :: x.bytes }
    else { x with mode := .failed }
  | .comment => x
  | .failed => x

/-- The tokens of a line, without its comment. -/
def tokens? (line : List Char) : Option (List Token) :=
  let x := (line.foldl Lexer.next { mode := .plain, word := [], bytes := [], toks := [] })
  match x.mode with
  | .plain => some x.endWord.toks.reverse
  | .comment => some x.toks.reverse
  | _ => none

/-! ## Lines -/

/-- A row of the assembler: a mnemonic, whether its first operand is the `A` field, the operand names in order, and the
operand values a pseudo-command supplies after those written. -/
structure AsmRow where
  /-- The mnemonic. -/
  mnemonic : String
  /-- The opcode. -/
  opc : BitVec 8
  /-- The first operand is the `A` field. -/
  usesA : Bool
  /-- The operand names. -/
  operands : List String
  /-- The values a pseudo-command supplies. -/
  preset : List Nat

/-- The commands (R119) and the pseudo-commands (R120). -/
def asmTable : List AsmRow :=
  [ ⟨"NOP", 0x00, false, [], []⟩, ⟨"CRC8", 0x10, false, ["crc"], []⟩, ⟨"CRC16", 0x11, false, ["crc"], []⟩,
    ⟨"CRC32", 0x12, false, ["crc"], []⟩ ] ++
  [ ⟨"FR_RESET", 0x20, false, [], []⟩, ⟨"FR_RECV", 0x21, false, [], []⟩, ⟨"FR_STATUS", 0x22, false, [], []⟩,
    ⟨"FR_CONSTRUCT_DATA", 0x23, false, ["id", "md"], []⟩, ⟨"FR_CONSTRUCT_LINK", 0x24, true, ["type", "id"], []⟩ ] ++
  [ ⟨"TP_REGISTER", 0x30, true, ["port", "flags", "ud", "meta"], []⟩,
    ⟨"TP_REGISTER_DEFAULT", 0x31, false, ["flags", "ud"], []⟩, ⟨"TP_SEND", 0x32, true, ["port", "seq", "pd"], []⟩,
    ⟨"TP_EVENT", 0x33, true, ["event"], []⟩, ⟨"TP_RECV", 0x34, false, ["md"], []⟩ ] ++
  [ ⟨"TS_RESET", 0x40, false, [], []⟩, ⟨"TS_UPDATE", 0x41, false, ["stx", "trx", "ttx", "srx"], []⟩,
    ⟨"TS_TIME", 0x42, false, [], []⟩, ⟨"TS_READ", 0x43, false, [], []⟩ ] ++
  [ ⟨"CRC8.START", 0x10, false, [], [0x00]⟩, ⟨"CRC16.START", 0x11, false, [], [0xFFFF]⟩,
    ⟨"CRC32.START", 0x12, false, [], [0x00000000]⟩, ⟨"TP_DEREGISTER", 0x30, true, ["port"], [0, 0, 0]⟩,
    ⟨"TP_DEREGISTER_DEFAULT", 0x31, false, [], [0, 0]⟩ ]

/-- The operand values of `name=value, ...` in the order of the names, and the tokens after them. The flag says that
an item has come before, so that a comma must stand first. -/
def operands? : List String → Bool → List Token → Option (List Nat × List Token)
  | [], _, toks => some ([], toks)
  | name :: names, false, .word n :: .equals :: .word v :: toks =>
    if n = name then
      match value? v, operands? names true toks with
      | some x, some (xs, rest) => some (x :: xs, rest)
      | _, _ => none
    else none
  | name :: names, true, .comma :: .word n :: .equals :: .word v :: toks =>
    if n = name then
      match value? v, operands? names true toks with
      | some x, some (xs, rest) => some (x :: xs, rest)
      | _, _ => none
    else none
  | _, _, _ => none

/-- The optional `data=..` that ends a line. -/
def data? (after : Bool) (toks : List Token) : Option (List Byte) :=
  match after, toks with
  | _, [] => some []
  | false, [.word "data", .equals, .bytes bs] => some bs
  | true, [.comma, .word "data", .equals, .bytes bs] => some bs
  | _, _ => none

/-- The transaction of a row with its operand values: `LEN` is the number of bytes listed (R119). -/
def AsmRow.transaction? (r : AsmRow) (values : List Nat) (data : List Byte) : Option Transaction :=
  let word (n : Nat) : Option Word64 := if n < 2 ^ 64 then some (BitVec.ofNat 64 n) else none
  if data.length ≤ maxCmdLen then
    match r.usesA, values with
    | true, a :: args =>
      if a < 256 then (args.mapM word).map fun ws => transaction r.opc (BitVec.ofNat 8 a) ws data else none
    | true, [] => none
    | false, args => (args.mapM word).map fun ws => transaction r.opc 0 ws data
  else none

/-- The transaction that a line of tokens encodes. -/
def assembleTokens : List Token → Option Transaction
  | .word m :: toks =>
    match asmTable.find? fun r => r.mnemonic = m with
    | none => none
    | some r =>
      match operands? r.operands false toks with
      | none => none
      | some (values, rest) =>
        match data? (!r.operands.isEmpty) rest with
        | none => none
        | some data => r.transaction? (values ++ r.preset) data
  | _ => none

/-- The transaction that a line of text encodes (R119, R120). -/
def assemble (line : String) : Option Transaction :=
  match tokens? line.toList with
  | some toks => assembleTokens toks
  | none => none

end Sys2Proof.Machine
end

