-- ==== Sys2Proof/Safety.lean ====
section
/-! DEFINITION. The terms the statements use: invariants of the spec, the legal operands, the scanner loop as a
relation, and what a step that fails leaves. -/

namespace Sys2Proof.Machine

/-! ## Safe steps -/

/-- The step is safe: the machine goes on. FBP-CORE has no fault (spec/60_exceptions.md R326), so only words that are
no command transaction stop the model. -/
def SafeStep (s : State) : Prop := ∃ t, step s = .next t

/-- A response of status `OK`. -/
def okResponse (res : List Word64) (out : List Byte) (events : List Event) : Response :=
  { status := .ok, res := res, out := out, events := events }

/-- A failing response: zero results, no output, no events (spec/60_exceptions.md R322). -/
def failedResponse (st : Status) (nres : Nat) : Response :=
  { status := st, res := List.replicate nres 0, out := [], events := [] }

/-- A state with one more response and nothing else changed. -/
def answered (s : State) (r : Response) : State := { s with responses := s.responses ++ [r] }

/-- The four parts of the block's state agree: the parameters and the three sub-units. -/
def SameUnits (s t : State) : Prop :=
  t.params = s.params ∧ t.framer = s.framer ∧ t.transport = s.transport ∧ t.timeSync = s.timeSync

/-- A framed transaction of this opcode for which `bad` holds fails with ILLEGAL_COMMAND: one response of `nres` zero
words, and no state written (spec/30_encoding.md R114, R117). -/
def AnswersIllegal (opc : BitVec 8) (nres : Nat) (bad : Transaction → Prop) : Prop :=
  ∀ (s : State) (tx : Transaction) (env : EnvInputs) (rest : List HostInput),
    s.port = .command tx env :: rest → tx.opc = opc → tx.framed = true → bad tx →
    step s = .next { s with
      port := rest, env := env, pos := s.pos + 1
      responses := s.responses ++ [failedResponse .illegalCommand nres] }

/-- Every element of the block's state has the value of the table of spec/70_reset_and_hazards.md R360, which leaves
`FR_BUF` unspecified. `SCALE_NOM` is that of spec/10_state.md R55, for a legal `COUNTER_HZ`. -/
abbrev AtResetValues (s : State) : Prop :=
  (s.framer.state = .sof1 ∧ s.framer.isSync = true ∧ s.framer.n = 0 ∧ s.framer.target = 0 ∧
    s.framer.totalBytes = 0 ∧ s.framer.ignoredBytes = 0 ∧ s.framer.resyncCount = 0) ∧
  ((∀ p : BitVec 5, s.transport.slot p = { evEn := false, rxEn := false, userData := 0, portMeta := 0 }) ∧
    s.transport.deflt = { evEn := false, rxEn := false, userData := 0 } ∧ s.transport.lastEvent = 1) ∧
  (s.timeSync.timeOffset = 0 ∧ s.timeSync.counterOffset = 0 ∧
    (s.params.Legal → s.timeSync.scale.toNat = (2 ^ 63 + s.params.counterHz) / (2 * s.params.counterHz)) ∧
    s.timeSync.ds = 0 ∧ s.timeSync.pTT = 0 ∧ s.timeSync.pTS = 0 ∧ s.timeSync.pSS = 0 ∧
    (∀ k : BitVec 4, s.timeSync.entry k = { counter := 0, time := 0, dcounter := 0 }) ∧
    s.timeSync.head = 0 ∧ s.timeSync.nhist = 0)

/-! ## Operands -/

/-- The five link types (spec/30_encoding.md R102), as values of the `A` field. -/
def IsLinkType (a : BitVec 8) : Prop := a = 0x0F ∨ a = 0x17 ∨ a = 0x1B ∨ a = 0x1D ∨ a = 0x1E

/-- Every operand of the command lies in its legal range (spec/30_encoding.md R113; the payload length of
spec/41_framer.md R180). -/
def OperandsLegal : Instr → Prop
  | .nop => True
  | .crc8 crcIn _ => crcIn.toNat ≤ 0xFF
  | .crc16 crcIn _ => crcIn.toNat ≤ 0xFFFF
  | .crc32 crcIn _ => crcIn.toNat ≤ 0xFFFFFFFF
  | .frReset => True
  | .frRecv _ => True
  | .frStatus => True
  | .frConstructData frameId metadata data =>
    frameId.toNat ≤ 2047 ∧ metadata.toNat ≤ 0xFFFF ∧ 1 ≤ data.length ∧ data.length ≤ 256
  | .frConstructLink a frameId => IsLinkType a ∧ frameId.toNat ≤ 2047
  | .tpRegister a flags _ _ => a.toNat ≤ 31 ∧ flags.toNat ≤ 3
  | .tpRegisterDefault flags _ => flags.toNat ≤ 3
  | .tpSend a seq portData _ => a.toNat ≤ 31 ∧ seq.toNat ≤ 3 ∧ portData.toNat ≤ 0xFF
  | .tpEvent _ => True
  | .tpRecv metadata _ => metadata.toNat ≤ 0xFFFF
  | .tsReset => True
  | .tsUpdate _ _ _ _ => True
  | .tsTime => True
  | .tsRead => True

/-! ## The framer -/

/-- The framer's invariant between commands, as spec/10_state.md R42 states it, with the target length of R38. -/
abbrev Framer.R42 (fr : Framer) : Prop :=
  (fr.state = .sof1 → fr.n = 0) ∧
  (fr.state = .sof2 → fr.n = 1 ∧ fr.byteAt 0 = 0x55) ∧
  (fr.state = .frameType → fr.n = 2 ∧ fr.byteAt 0 = 0x55 ∧ fr.byteAt 1 = 0x00) ∧
  (fr.state = .dataHeader →
    (3 ≤ fr.n ∧ fr.n ≤ 5) ∧ (fr.byteAt 0 = 0x55 ∧ fr.byteAt 1 = 0x00) ∧ (fr.byteAt 2).extractLsb' 3 5 = 0) ∧
  (fr.state = .store →
    (3 ≤ fr.n ∧ fr.n < fr.target ∧ fr.target ≤ 269) ∧ (fr.byteAt 0 = 0x55 ∧ fr.byteAt 1 = 0x00) ∧
      if (fr.byteAt 2).extractLsb' 3 5 = 0 then fr.target = (fr.byteAt 4).toNat + 14 else fr.target = 9)

/-- What a candidate in `STORE` has passed: a data frame is stored through its length CRC, which matched, and any other
frame has a link type. R42 does not say it; with it the invariant is inductive. -/
abbrev Framer.Checked (fr : Framer) : Prop :=
  fr.state = .store →
    if (fr.byteAt 2).extractLsb' 3 5 = 0 then 6 ≤ fr.n ∧ fr.byteAt 5 = lenCrc (fr.byteAt 4)
    else isLinkType ((fr.byteAt 2).extractLsb' 3 5) = true

/-- The inductive invariant of the framer: R42 and what a candidate in `STORE` has passed. -/
abbrev Framer.Inv (fr : Framer) : Prop := fr.R42 ∧ fr.Checked

/-- The loop of spec/41_framer.md R161 as a relation: from a framer and a pending queue, a number of `fr_step` calls
that ends with the queue empty, the framer then, and the events in order. -/
inductive ScanRun (crc : List Byte → BitVec 32) : Framer → List Byte → Framer → List Event → Nat → Prop where
  /-- The queue is empty. -/
  | done (fr : Framer) : ScanRun crc fr [] fr [] 0
  /-- One byte is processed and its replay put in front. -/
  | step (fr : Framer) (b : Byte) (q : List Byte) (fr' : Framer) (events : List Event) (k : Nat)
      (h : ScanRun crc (frStep crc fr b).framer ((frStep crc fr b).replay ++ q) fr' events k) :
      ScanRun crc fr (b :: q) fr' ((frStep crc fr b).events ++ events) (k + 1)

/-- The gate of R172 over an event list, from a value of `FR_IS_SYNC`: an error may occur only while synchronised and
ends that, a frame restores it. The answer is `FR_IS_SYNC` at the end, or none where an error is repeated. -/
def syncAfter : Bool → List Event → Option Bool
  | sync, [] => some sync
  | true, .frError :: es => syncAfter false es
  | false, .frError :: _ => none
  | _, .frData _ _ _ :: es => syncAfter true es
  | _, .frLink _ _ :: es => syncAfter true es
  | sync, _ :: es => syncAfter sync es

/-- How many framing errors an event list holds. -/
def errorCount (es : List Event) : Nat := es.count .frError

/-- The wire bytes a frame event stands for, without its EOF, which stays as the next SOF1 (R174): `T - 1`. -/
def eventBytes : Event → Nat
  | .frData _ _ payload => payload.length + 12
  | .frLink _ _ => 8
  | _ => 0

/-- Two framers that differ only in buffer bytes at or beyond `FR_N` (spec/10_state.md R36). -/
def Framer.AgreesBelowN (fr fr' : Framer) : Prop :=
  fr' = { fr with buf := fr'.buf } ∧ ∀ i, i < fr.n → fr'.byteAt i = fr.byteAt i

/-! ## The Transport -/

/-- `TP_LAST_EVENT` holds a cached code (spec/10_state.md R45). -/
abbrev Transport.Inv (tp : Transport) : Prop :=
  tp.lastEvent = 1 ∨ tp.lastEvent = 2 ∨ tp.lastEvent = 3 ∨ tp.lastEvent = 4

/-- The state with every `META` cleared. -/
def eraseMeta (s : State) : State :=
  { s with transport := { s.transport with ports := s.transport.ports.map fun p => { p with portMeta := 0 } } }

/-! ## The time-sync filter -/

/-- The history entry `j` samples back from the newest, j = 0 the newest (spec/10_state.md R53, R54). -/
def TimeSync.history (ts : TimeSync) (j : BitVec 4) : Sample := ts.entry (ts.head - 1 - j)

/-- The filter's invariant: `TS_NHIST` is at most M (R53), `TS_SCALE` at least 1 (R48), and while the filter is
bootstrapped `TS_COUNTER_OFFSET` is the newest sample's counter (R47) and each history entry's counter lies strictly
below that of the entry after it (spec/43_timesync.md R271). -/
abbrev TimeSync.Inv (p : Params) (ts : TimeSync) : Prop :=
  ts.nhist.toNat ≤ p.updateProcessMax ∧ 1 ≤ ts.scale.toNat ∧
  (ts.nhist ≠ 0 → (ts.history 0).counter = ts.counterOffset) ∧
  ∀ j : BitVec 4, j.toNat + 1 < ts.nhist.toNat →
    (ts.history (j + 1)).counter.toNat < (ts.history j).counter.toNat

/-! ## The whole machine -/

/-- The invariant of the machine: legal parameters and the invariants of the three sub-units. -/
abbrev State.Inv (s : State) : Prop :=
  s.params.Legal ∧ s.framer.Inv ∧ s.transport.Inv ∧ s.timeSync.Inv s.params

/-! ## Codes -/

/-- The number of bit positions in which two words of one width differ. -/
def hammingDistance {w : Nat} (x y : BitVec w) : Nat :=
  ((List.range w).filter fun i => x.getLsbD i != y.getLsbD i).length

end Sys2Proof.Machine
end

