-- ==== Sys2Proof/Certificates/Slice0/Obligations.lean ====
section
/-! DEFINITION. The statements for the provers. Each says what a command or the machine does, in the terms of the spec's
rules; a statement that rests on a choice of the model says so and names the log entry. -/

open Sys2Proof Sys2Proof.Machine

/-! ## Encoding and the step -/

/-- Decoding the encoding of a well-formed command gives the command back: no bit of `CW`, no argument word and no
payload byte is dropped (spec/30_encoding.md R110 to R112). -/
def Obligations.DecodeOfEncodeIsTheCommand : Prop :=
  ∀ i : Instr, i.wf = true → decode (encode i) = .ok i

/-- A framed transaction survives being written as one number, and the number of a well-formed command reads back as
the command whatever number of bits covers it. The numbering is the model's choice (log 13). -/
def Obligations.TransactionNumberRoundTrip : Prop :=
  (∀ tx : Transaction, tx.framed = true → Transaction.ofBits tx.toBits = tx) ∧
  ∀ (i : Instr) (nbits : Nat), i.wf = true → (encode i).toBits < 2 ^ nbits →
    decodeTableWord nbits (encode i).toBits = some i

/-- Command words written out from R111 and R112 decode to the commands they stand for. -/
def Obligations.WrittenCommandWordsDecode : Prop :=
  decode ⟨0x00000000, [], []⟩ = .ok .nop ∧
  decode ⟨0x12000003, [0xDEADBEEF], [1, 2, 3]⟩ = .ok (.crc32 0xDEADBEEF [1, 2, 3]) ∧
  decode ⟨0x24170000, [0x123], []⟩ = .ok (.frConstructLink 0x17 0x123) ∧
  decode ⟨0x32030002, [3, 0x5A], [1, 2]⟩ = .ok (.tpSend 3 3 0x5A [1, 2]) ∧
  decode ⟨0x41000000, [1, 2, 3, 4], []⟩ = .ok (.tsUpdate 1 2 3 4)

/-- When the transaction at the head of the port decodes to a command, the step is that command's meaning at the state
where the input is consumed, its environment inputs are set and the position has advanced by one. -/
def Obligations.StepRunsTheDecodedCommand : Prop :=
  ∀ (s : State) (tx : Transaction) (env : EnvInputs) (rest : List HostInput) (i : Instr),
    s.port = .command tx env :: rest → decode tx = .ok i →
    step s = exec i { s with port := rest, env := env, pos := s.pos + 1 }

/-- A step without a command: with nothing presented the block waits (R362; log 1), and the reset input sets every
element to its reset value and keeps the parameters (R360; log 12). Every state made by reset has those values. -/
def Obligations.ResetInputAndIdleStep : Prop :=
  (∀ s : State, s.port = [] → step s = .next s) ∧
  (∀ (s : State) (rest : List HostInput), s.port = .globalReset :: rest →
    ∃ t, step s = .next t ∧ AtResetValues t ∧ t.params = s.params ∧ t.port = rest ∧ t.env = s.env ∧ t.pos = s.pos ∧
      t.responses = s.responses) ∧
  ∀ p : Params, AtResetValues (State.resetWith p) ∧ (State.resetWith p).params = p

/-- A command is consumed exactly once, the position advances by exactly one whatever the status, and exactly one
response is produced. The parameters never change. -/
def Obligations.CommandTakenOnceAnsweredOnce : Prop :=
  ∀ (s : State) (tx : Transaction) (env : EnvInputs) (rest : List HostInput) (t : State),
    s.port = .command tx env :: rest → step s = .next t →
    t.port = rest ∧ t.env = env ∧ t.pos = s.pos + 1 ∧ t.params = s.params ∧
      ∃ r, t.responses = s.responses ++ [r]

/-- Every command transaction completes: the step answers a next state, with a response. -/
def Obligations.EveryFramedCommandCompletes : Prop :=
  ∀ (s : State) (tx : Transaction) (env : EnvInputs) (rest : List HostInput),
    s.port = .command tx env :: rest → tx.framed = true →
    ∃ t r, step s = .next t ∧ t.responses = s.responses ++ [r]

/-- A command that fails with PARAM_INVALID or ILLEGAL_COMMAND writes no state, and its results are zeros, its output
and its events empty. -/
def Obligations.FailedCommandWritesNoState : Prop :=
  ∀ (s : State) (tx : Transaction) (env : EnvInputs) (rest : List HostInput) (t : State) (r : Response),
    s.port = .command tx env :: rest → step s = .next t → t.responses = s.responses ++ [r] →
    r.status = .paramInvalid ∨ r.status = .illegalCommand →
    SameUnits s t ∧ (∀ x ∈ r.res, x = 0) ∧ r.out = [] ∧ r.events = []

/-- A command with an unassigned opcode fails with ILLEGAL_COMMAND and writes no state; its payload is consumed. -/
def Obligations.UnassignedOpcodeIsIllegal : Prop :=
  ∀ (s : State) (tx : Transaction) (env : EnvInputs) (rest : List HostInput),
    s.port = .command tx env :: rest →
    ((0x01 ≤ tx.opc.toNat ∧ tx.opc.toNat ≤ 0x0F) ∨ (0x13 ≤ tx.opc.toNat ∧ tx.opc.toNat ≤ 0x1F) ∨
      (0x25 ≤ tx.opc.toNat ∧ tx.opc.toNat ≤ 0x2F) ∨ (0x35 ≤ tx.opc.toNat ∧ tx.opc.toNat ≤ 0x3F) ∨
      0x44 ≤ tx.opc.toNat) →
    tx.args = [] → tx.data.length = tx.len →
    ∃ n, step s = .next { s with
      port := rest, env := env, pos := s.pos + 1
      responses := s.responses ++ [failedResponse .illegalCommand n] }

/-- A command with a nonzero reserved field fails with ILLEGAL_COMMAND and writes no state; its payload is consumed. -/
def Obligations.ReservedFieldIsIllegal : Prop :=
  ∀ (s : State) (tx : Transaction) (env : EnvInputs) (rest : List HostInput),
    s.port = .command tx env :: rest → tx.framed = true →
    (tx.a ≠ 0 ∧ tx.opc ∈ ([0x00, 0x20, 0x22, 0x31, 0x40, 0x41, 0x42, 0x43] ++
        [0x10, 0x11, 0x12, 0x21, 0x23, 0x34] : List (BitVec 8))) ∨
      (tx.len ≠ 0 ∧ tx.opc ∈ ([0x00, 0x20, 0x22, 0x31, 0x40, 0x41, 0x42, 0x43] ++
        [0x24, 0x30, 0x33] : List (BitVec 8))) →
    ∃ n, step s = .next { s with
      port := rest, env := env, pos := s.pos + 1
      responses := s.responses ++ [failedResponse .illegalCommand n] }

/-- A command answers PARAM_INVALID exactly when an operand lies outside its legal range. -/
def Obligations.ParamInvalidIffOperandIllegal : Prop :=
  ∀ (i : Instr) (s t : State) (r : Response),
    exec i s = .next t → t.responses = s.responses ++ [r] → (r.status = .paramInvalid ↔ ¬ OperandsLegal i)

/-- The shape of every command's response: as many result words as its opcode has, output bytes only from the two
constructors, LL_ERROR only from TP_SEND under a nonzero lower-layer code, ILLEGAL_COMMAND from no decoded command. -/
def Obligations.ResponseShapeByCommand : Prop :=
  ∀ (i : Instr) (s t : State) (r : Response),
    exec i s = .next t → t.responses = s.responses ++ [r] →
    r.res.length = nresOf i.opc ∧
    (r.out ≠ [] → (∃ x y d, i = .frConstructData x y d) ∨ ∃ a x, i = .frConstructLink a x) ∧
    (r.status = .llError → (∃ a x y d, i = .tpSend a x y d) ∧ s.env.llStatus ≠ 0) ∧
    r.status ≠ .illegalCommand

/-- The ten commands without state effect answer a next state that is the state given, with one more response. -/
def Obligations.ReadOnlyCommandsWriteNothing : Prop :=
  ∀ (i : Instr) (s : State),
    (i = .nop ∨ (∃ c d, i = .crc8 c d) ∨ (∃ c d, i = .crc16 c d) ∨ (∃ c d, i = .crc32 c d) ∨ i = .frStatus ∨
      (∃ x y d, i = .frConstructData x y d) ∨ (∃ a x, i = .frConstructLink a x) ∨
      (∃ a x y d, i = .tpSend a x y d) ∨ i = .tsTime ∨ i = .tsRead) →
    ∃ r, exec i s = .next (answered s r)

/-- NOP does nothing and answers OK, and the all-zero command word is NOP; its reserved fields are checked. -/
def Obligations.NopDoesNothing : Prop :=
  (∀ s : State, exec .nop s = .next (answered s (okResponse [] [] []))) ∧
  decode ⟨0x00000000, [], []⟩ = .ok .nop ∧
  AnswersIllegal 0x00 0 fun tx => tx.a ≠ 0 ∨ tx.len ≠ 0

/-! ## CRC -/

/-- CRC8: the running CRC-8 of the payload from `crc_in`; PARAM_INVALID above 0xFF; ILLEGAL_COMMAND if `A` is set. -/
def Obligations.Crc8Result : Prop :=
  (∀ (s : State) (crcIn : Word64) (data : List Byte), crcIn.toNat ≤ 0xFF →
    exec (.crc8 crcIn data) s =
      .next (answered s (okResponse [(crc8Update (crcIn.setWidth 8) data).setWidth 64] [] []))) ∧
  (∀ (s : State) (crcIn : Word64) (data : List Byte), 0xFF < crcIn.toNat →
    exec (.crc8 crcIn data) s = .next (answered s (failedResponse .paramInvalid 1))) ∧
  AnswersIllegal 0x10 1 fun tx => tx.a ≠ 0

/-- CRC16: the running CRC-16 of the payload from `crc_in`; PARAM_INVALID above 0xFFFF; ILLEGAL_COMMAND if `A` is set. -/
def Obligations.Crc16Result : Prop :=
  (∀ (s : State) (crcIn : Word64) (data : List Byte), crcIn.toNat ≤ 0xFFFF →
    exec (.crc16 crcIn data) s =
      .next (answered s (okResponse [(crc16Update (crcIn.setWidth 16) data).setWidth 64] [] []))) ∧
  (∀ (s : State) (crcIn : Word64) (data : List Byte), 0xFFFF < crcIn.toNat →
    exec (.crc16 crcIn data) s = .next (answered s (failedResponse .paramInvalid 1))) ∧
  AnswersIllegal 0x11 1 fun tx => tx.a ≠ 0

/-- CRC32: the running CRC-32 of the payload from `crc_in`; PARAM_INVALID above 0xFFFFFFFF; ILLEGAL_COMMAND if `A` is
set. -/
def Obligations.Crc32Result : Prop :=
  (∀ (s : State) (crcIn : Word64) (data : List Byte), crcIn.toNat ≤ 0xFFFFFFFF →
    exec (.crc32 crcIn data) s =
      .next (answered s (okResponse [(crc32Update (crcIn.setWidth 32) data).setWidth 64] [] []))) ∧
  (∀ (s : State) (crcIn : Word64) (data : List Byte), 0xFFFFFFFF < crcIn.toNat →
    exec (.crc32 crcIn data) s = .next (answered s (failedResponse .paramInvalid 1))) ∧
  AnswersIllegal 0x12 1 fun tx => tx.a ≠ 0

/-- The generators: each is the loop of its rule, R141, R144 or R146, over the bytes and the eight bits of each, written
here on naturals; its check value on the ASCII bytes of "123456789"; its seed; and the chaining law: a message fed in
pieces gives the CRC of the message whole. -/
def Obligations.GeneratorsChain : Prop :=
  let bit8 (c : Nat) : Nat := if c / 2 ^ 7 % 2 = 1 then (2 * c ^^^ 0xD7) % 2 ^ 8 else 2 * c % 2 ^ 8
  let bit16 (c : Nat) : Nat := if c / 2 ^ 15 % 2 = 1 then (2 * c ^^^ 0x1021) % 2 ^ 16 else 2 * c % 2 ^ 16
  let bit32 (c : Nat) : Nat := if c % 2 = 1 then c / 2 ^^^ 0xEDB88320 else c / 2
  let digits : List Byte := [0x31, 0x32, 0x33, 0x34, 0x35, 0x36, 0x37, 0x38, 0x39]
  (∀ (c : BitVec 8) (data : List Byte),
    (crc8Update c data).toNat = data.foldl (fun c b => bit8^[8] (c ^^^ b.toNat)) c.toNat) ∧
  (∀ (c : BitVec 16) (data : List Byte),
    (crc16Update c data).toNat = data.foldl (fun c b => bit16^[8] (c ^^^ 2 ^ 8 * b.toNat)) c.toNat) ∧
  (∀ (c : BitVec 32) (data : List Byte),
    (crc32Update c data).toNat =
      data.foldl (fun c b => bit32^[8] (c ^^^ b.toNat)) (c.toNat ^^^ 0xFFFFFFFF) ^^^ 0xFFFFFFFF) ∧
  crc8Update 0x00 digits = 0x6D ∧ crc16Update 0xFFFF digits = 0x29B1 ∧ crc32Update 0x00000000 digits = 0xCBF43926 ∧
  seed8 = 0x00 ∧ seed16 = 0xFFFF ∧ seed32 = 0x00000000 ∧
  (∀ (c : BitVec 8) (a b : List Byte), crc8Update (crc8Update c a) b = crc8Update c (a ++ b)) ∧
  (∀ (c : BitVec 16) (a b : List Byte), crc16Update (crc16Update c a) b = crc16Update c (a ++ b)) ∧
  ∀ (c : BitVec 32) (a b : List Byte), crc32Update (crc32Update c a) b = crc32Update c (a ++ b)

/-- The chaining law across commands: the result word of a CRC command on `a`, given back as `crc_in` with `b`, gives
the result of the command on `a ++ b`; and an empty payload returns `crc_in`. -/
def Obligations.CrcCommandsChain : Prop :=
  ∀ op : Word64 → List Byte → Instr, op = .crc8 ∨ op = .crc16 ∨ op = .crc32 →
    (∀ (s : State) (c x : Word64) (a b : List Byte),
      exec (op c a) s = .next (answered s (okResponse [x] [] [])) →
      ∃ y, exec (op x b) s = .next (answered s (okResponse [y] [] [])) ∧
        exec (op c (a ++ b)) s = .next (answered s (okResponse [y] [] []))) ∧
    ∀ (s : State) (c : Word64), OperandsLegal (op c []) →
      exec (op c []) s = .next (answered s (okResponse [c] [] []))

/-- The length code has minimum Hamming distance 5, and meets it exactly. -/
def Obligations.LengthCodeDistanceIsFive : Prop :=
  (∀ a b : Byte, a ≠ b → 5 ≤ hammingDistance (lenCrc a ++ a) (lenCrc b ++ b)) ∧
  ∃ a b : Byte, a ≠ b ∧ hammingDistance (lenCrc a ++ a) (lenCrc b ++ b) = 5

/-! ## Framer commands -/

/-- FR_RESET: every framer element but the buffer bytes at its reset value, nothing else changed, no event;
ILLEGAL_COMMAND if a reserved field is set. -/
def Obligations.FrResetResult : Prop :=
  (∀ s : State, exec .frReset s = .next { s with
    framer := { s.framer with
      state := .sof1, n := 0, target := 0, isSync := true, totalBytes := 0, ignoredBytes := 0, resyncCount := 0 }
    responses := s.responses ++ [okResponse [] [] []] }) ∧
  AnswersIllegal 0x20 0 fun tx => tx.a ≠ 0 ∨ tx.len ≠ 0

/-- FR_STATUS: the three statistics, nothing changed; ILLEGAL_COMMAND if a reserved field is set. -/
def Obligations.FrStatusResult : Prop :=
  (∀ s : State, exec .frStatus s = .next (answered s
    (okResponse [s.framer.totalBytes, s.framer.ignoredBytes, s.framer.resyncCount] [] []))) ∧
  AnswersIllegal 0x22 3 fun tx => tx.a ≠ 0 ∨ tx.len ≠ 0

/-- FR_RECV from every state: it counts the received bytes, then runs `fr_step` over the pending queue until the queue
is empty, and answers OK with the events in order; nothing outside the framer changes. From a framer that meets R42 the
loop takes at most `(LEN + FR_N)^2` steps. -/
def Obligations.FrRecvRunsTheReplayLoop : Prop :=
  (∀ (s : State) (data : List Byte), ∃ fr' events k,
    ScanRun (frameCrc s.params.frameCrc)
      { s.framer with totalBytes := s.framer.totalBytes + BitVec.ofNat 64 data.length } data fr' events k ∧
    (s.framer.R42 → k ≤ (data.length + s.framer.n) ^ 2) ∧
    exec (.frRecv data) s = .next { s with
      framer := fr', responses := s.responses ++ [okResponse [] [] events] }) ∧
  AnswersIllegal 0x21 0 fun tx => tx.a ≠ 0

/-- FR_CONSTRUCT_DATA: the P + 13 bytes of R100 with their length CRC and frame CRC, nothing changed; PARAM_INVALID on
an operand or a payload length out of range; ILLEGAL_COMMAND if `A` is set. -/
def Obligations.ConstructDataFrameBytes : Prop :=
  (∀ (s : State) (frameId metadata : Word64) (data : List Byte),
    frameId.toNat ≤ 2047 → metadata.toNat ≤ 0xFFFF → 1 ≤ data.length → data.length ≤ 256 →
    let lenByte : Byte := BitVec.ofNat 8 (data.length - 1)
    let body : List Byte :=
      [BitVec.ofNat 8 (frameId.toNat / 256), BitVec.ofNat 8 frameId.toNat, lenByte, crc8Update 0x00 [lenByte],
        BitVec.ofNat 8 metadata.toNat, BitVec.ofNat 8 (metadata.toNat / 256)] ++ data
    let c := (frameCrc s.params.frameCrc body).toNat
    let out : List Byte := [0x55, 0x00] ++ body ++
      [BitVec.ofNat 8 c, BitVec.ofNat 8 (c / 2 ^ 8), BitVec.ofNat 8 (c / 2 ^ 16), BitVec.ofNat 8 (c / 2 ^ 24), 0x55]
    out.length = data.length + 13 ∧
      exec (.frConstructData frameId metadata data) s = .next (answered s (okResponse [] out []))) ∧
  (∀ (s : State) (frameId metadata : Word64) (data : List Byte),
    2047 < frameId.toNat ∨ 0xFFFF < metadata.toNat ∨ data.length < 1 ∨ 256 < data.length →
    exec (.frConstructData frameId metadata data) s = .next (answered s (failedResponse .paramInvalid 0))) ∧
  AnswersIllegal 0x23 0 fun tx => tx.a ≠ 0

/-- FR_CONSTRUCT_LINK: the 9 bytes of R101, nothing changed; PARAM_INVALID for a type that is no link type or an id out
of range; ILLEGAL_COMMAND if `LEN` is set. -/
def Obligations.ConstructLinkFrameBytes : Prop :=
  (∀ (s : State) (a : BitVec 8) (frameId : Word64), IsLinkType a → frameId.toNat ≤ 2047 →
    let body : List Byte :=
      [BitVec.ofNat 8 (8 * a.toNat + frameId.toNat / 256), BitVec.ofNat 8 frameId.toNat]
    let c := (frameCrc s.params.frameCrc body).toNat
    exec (.frConstructLink a frameId) s = .next (answered s (okResponse []
      ([0x55, 0x00] ++ body ++
        [BitVec.ofNat 8 c, BitVec.ofNat 8 (c / 2 ^ 8), BitVec.ofNat 8 (c / 2 ^ 16), BitVec.ofNat 8 (c / 2 ^ 24),
          0x55]) []))) ∧
  (∀ (s : State) (a : BitVec 8) (frameId : Word64), ¬ IsLinkType a ∨ 2047 < frameId.toNat →
    exec (.frConstructLink a frameId) s = .next (answered s (failedResponse .paramInvalid 0))) ∧
  AnswersIllegal 0x24 0 fun tx => tx.len ≠ 0

/-! ## The scanner -/

/-- State SOF1 and state SOF2, byte by byte: a start byte is stored, padding is counted, any other byte is discarded
with at most one error, which ends synchronisation and counts a desync episode. -/
def Obligations.ScannerSearchStates : Prop :=
  ∀ (crc : List Byte → BitVec 32) (fr : Framer) (b : Byte),
    let lost : Framer := { fr with
      isSync := false, resyncCount := if fr.isSync then fr.resyncCount + 1 else fr.resyncCount
      ignoredBytes := fr.ignoredBytes + 1 }
    let errors : List Event := if fr.isSync then [.frError] else []
    (fr.state = .sof1 → b = 0x55 →
      frStep crc fr b = ⟨{ fr with buf := fr.buf.set 0 b, n := 1, state := .sof2 }, [], []⟩) ∧
    (fr.state = .sof1 → b ≠ 0x55 → frStep crc fr b = ⟨lost, errors, []⟩) ∧
    (fr.state = .sof2 → b = 0x00 →
      frStep crc fr b = ⟨{ fr with buf := fr.buf.set 1 b, n := 2, state := .frameType }, [], []⟩) ∧
    (fr.state = .sof2 → b = 0x55 →
      frStep crc fr b = ⟨{ fr with ignoredBytes := fr.ignoredBytes + 1 }, [], []⟩) ∧
    (fr.state = .sof2 → b ≠ 0x00 → b ≠ 0x55 →
      frStep crc fr b =
        ⟨{ lost with buf := fr.buf.set 1 b, n := 0, target := 0, state := .sof1 }, errors, [b]⟩)

/-- States FRAME_TYPE and DATA_HEADER: the type selects the variant and a link frame's length; the sixth byte must be
the length CRC, and then fixes a data frame's length; anything else gives the candidate up. -/
def Obligations.ScannerHeaderStates : Prop :=
  ∀ (crc : List Byte → BitVec 32) (fr : Framer) (b : Byte),
    (fr.state = .frameType →
      let fr1 : Framer := { fr with buf := fr.buf.set 2 b, n := 3 }
      let t := b.toNat / 8
      (t = 0 → frStep crc fr b = ⟨{ fr1 with state := .dataHeader }, [], []⟩) ∧
      (t = 0x0F ∨ t = 0x17 ∨ t = 0x1B ∨ t = 0x1D ∨ t = 0x1E →
        frStep crc fr b = ⟨{ fr1 with target := 9, state := .store }, [], []⟩) ∧
      (t ≠ 0 → ¬ (t = 0x0F ∨ t = 0x17 ∨ t = 0x1B ∨ t = 0x1D ∨ t = 0x1E) →
        frStep crc fr b = frResync fr1)) ∧
    (fr.state = .dataHeader →
      let fr1 : Framer := { fr with buf := fr.buf.setIfInBounds fr.n b, n := fr.n + 1 }
      (fr.n < 5 → frStep crc fr b = ⟨fr1, [], []⟩) ∧
      (fr.n = 5 → b = crc8Update 0x00 [fr.byteAt 4] →
        frStep crc fr b = ⟨{ fr1 with target := (fr.byteAt 4).toNat + 14, state := .store }, [], []⟩) ∧
      (fr.n = 5 → b ≠ crc8Update 0x00 [fr.byteAt 4] → frStep crc fr b = frResync fr1))

/-- State STORE, from a framer that meets R42: bytes are stored up to the target length; a complete candidate whose
last byte is not the EOF or whose CRC does not match is given up; otherwise its one event is delivered, synchronisation
is set and the EOF stays as the next SOF1. -/
def Obligations.ScannerStoreState : Prop :=
  ∀ (crc : List Byte → BitVec 32) (fr : Framer) (b : Byte), fr.R42 → fr.state = .store →
    let fr1 : Framer := { fr with buf := fr.buf.setIfInBounds fr.n b, n := fr.n + 1 }
    let bytes (i len : Nat) : List Byte := (List.range len).map fun j => fr.byteAt (i + j)
    let at' (i : Nat) : Nat := (fr.byteAt i).toNat
    let good : Prop := b = 0x55 ∧
      (crc (bytes 2 (fr.target - 7))).toNat =
        at' (fr.target - 5) + 2 ^ 8 * at' (fr.target - 4) + 2 ^ 16 * at' (fr.target - 3) + 2 ^ 24 * at' (fr.target - 2)
    let id : BitVec 11 := BitVec.ofNat 11 (256 * (at' 2 % 8) + at' 3)
    let event : Event :=
      if at' 2 / 8 = 0 then
        .frData id (BitVec.ofNat 16 (at' 6 + 256 * at' 7)) (bytes 8 (fr.target - 13))
      else .frLink (BitVec.ofNat 5 (at' 2 / 8)) id
    (fr.n + 1 < fr.target → frStep crc fr b = ⟨fr1, [], []⟩) ∧
    (fr.n + 1 = fr.target → ¬ good → frStep crc fr b = frResync fr1) ∧
    (fr.n + 1 = fr.target → good →
      frStep crc fr b =
        ⟨{ fr1 with buf := fr1.buf.set 0 0x55, isSync := true, n := 1, target := 0, state := .sof2 }, [event], []⟩)

/-- Giving a candidate up: one error if synchronised, one byte ignored, the scanner back in SOF1 with nothing held, and
every held byte but the first replayed in order. -/
def Obligations.ResyncReplaysHeldBytes : Prop :=
  ∀ fr : Framer, 1 ≤ fr.n → fr.n ≤ 269 →
    frResync fr =
      ⟨{ fr with
          state := .sof1, n := 0, target := 0, isSync := false
          resyncCount := if fr.isSync then fr.resyncCount + 1 else fr.resyncCount
          ignoredBytes := fr.ignoredBytes + 1 },
        if fr.isSync then [.frError] else [],
        (List.range (fr.n - 1)).map fun j => fr.byteAt (j + 1)⟩

/-- Every step of the machine keeps the framer's invariant: R42, with what a candidate in STORE has passed. -/
def Obligations.FramerInvariantKept : Prop :=
  ∀ s t : State, s.framer.Inv → step s = .next t → t.framer.Inv

/-- In the events of one FR_RECV, from every state, an error occurs only while synchronised and a frame restores
synchronisation, so no two errors follow each other with no frame between; `FR_IS_SYNC` and `FR_RESYNC_COUNT` agree
with the events. -/
def Obligations.OneErrorPerDesyncEpisode : Prop :=
  ∀ (s : State) (data : List Byte) (t : State) (r : Response),
    exec (.frRecv data) s = .next t → t.responses = s.responses ++ [r] →
    syncAfter s.framer.isSync r.events = some t.framer.isSync ∧
    t.framer.resyncCount = s.framer.resyncCount + BitVec.ofNat 64 (errorCount r.events)

/-- No wire byte is lost or counted twice by one FR_RECV: the bytes received and the bytes held before are the bytes
ignored, the bytes of the frames delivered and the bytes held after. -/
def Obligations.EveryWireByteAccountedFor : Prop :=
  ∀ (s : State) (data : List Byte) (t : State) (r : Response),
    s.framer.Inv → exec (.frRecv data) s = .next t → t.responses = s.responses ++ [r] →
    t.framer.totalBytes = s.framer.totalBytes + BitVec.ofNat 64 data.length ∧
    ∃ ignored : Nat,
      t.framer.ignoredBytes = s.framer.ignoredBytes + BitVec.ofNat 64 ignored ∧
      data.length + s.framer.n = ignored + (r.events.map eventBytes).sum + t.framer.n

/-- Split-feed invariance: two FR_RECVs leave the framer of one FR_RECV of the joined bytes, and their event lists
joined are its event list. -/
def Obligations.SplitFeedInvariance : Prop :=
  ∀ (s : State) (xs ys : List Byte), ∃ t1 t2 t e1 e2,
    exec (.frRecv xs) s = .next t1 ∧ t1.responses = s.responses ++ [okResponse [] [] e1] ∧
    exec (.frRecv ys) t1 = .next t2 ∧ t2.responses = t1.responses ++ [okResponse [] [] e2] ∧
    exec (.frRecv (xs ++ ys)) s = .next t ∧ t.responses = s.responses ++ [okResponse [] [] (e1 ++ e2)] ∧
    t.framer = t2.framer

/-- Round trip of a data frame, for any frame CRC function: from SOF1 or SOF2, FR_RECV of the bytes FR_CONSTRUCT_DATA
produces emits exactly the one data event, and leaves the scanner primed and synchronised. -/
def Obligations.DataFrameRoundTrip : Prop :=
  ∀ (s : State) (frameId metadata : Word64) (payload : List Byte),
    s.framer.state = .sof1 ∨ s.framer.state = .sof2 →
    frameId.toNat ≤ 2047 → metadata.toNat ≤ 0xFFFF → 1 ≤ payload.length → payload.length ≤ 256 →
    ∃ out t,
      exec (.frConstructData frameId metadata payload) s = .next (answered s (okResponse [] out [])) ∧
      exec (.frRecv out) s = .next t ∧
      t.responses = s.responses ++ [okResponse [] []
        [.frData (BitVec.ofNat 11 frameId.toNat) (BitVec.ofNat 16 metadata.toNat) payload]] ∧
      t.framer.state = .sof2 ∧ t.framer.n = 1 ∧ t.framer.isSync = true

/-- Round trip of a link frame, for any frame CRC function. -/
def Obligations.LinkFrameRoundTrip : Prop :=
  ∀ (s : State) (a : BitVec 8) (frameId : Word64),
    s.framer.state = .sof1 ∨ s.framer.state = .sof2 → IsLinkType a → frameId.toNat ≤ 2047 →
    ∃ out t,
      exec (.frConstructLink a frameId) s = .next (answered s (okResponse [] out [])) ∧
      exec (.frRecv out) s = .next t ∧
      t.responses = s.responses ++ [okResponse [] []
        [.frLink (BitVec.ofNat 5 a.toNat) (BitVec.ofNat 11 frameId.toNat)]] ∧
      t.framer.state = .sof2 ∧ t.framer.n = 1 ∧ t.framer.isSync = true

/-- A reset leaves nothing of a partial frame behind: after FR_RESET, from whatever state, and after a global reset, a
constructed frame is accepted with no framing error. That the reset input lands between commands is log 12. -/
def Obligations.FrameAcceptedAfterReset : Prop :=
  ∀ (s u : State) (i : Instr),
    exec .frReset s = .next u ∨ (∃ rest, s.port = .globalReset :: rest ∧ step s = .next u) →
    (∃ x y d, i = .frConstructData x y d) ∨ (∃ a x, i = .frConstructLink a x) → OperandsLegal i →
    ∃ out t event,
      exec i u = .next (answered u (okResponse [] out [])) ∧
      exec (.frRecv out) u = .next t ∧ t.responses = u.responses ++ [okResponse [] [] [event]] ∧ event ≠ .frError

/-- Soundness of the five checks, for any frame CRC function: whenever the scanner delivers a frame, the bytes it held
and the byte it was given are exactly the encoding of the event, both start bytes, a valid type, the length CRC, the
frame CRC and the EOF among them. -/
def Obligations.DeliveredFramesAreEncodings : Prop :=
  ∀ (crc : List Byte → BitVec 32) (fr : Framer) (b : Byte) (event : Event),
    fr.Inv → event ∈ (frStep crc fr b).events → event ≠ .frError →
    ∃ body, ((List.range fr.n).map fr.byteAt) ++ [b] = sealFrame crc body ∧
      ((∃ id md payload, event = .frData id md payload ∧ 1 ≤ payload.length ∧ payload.length ≤ 256 ∧
          body = dataBody id md payload) ∨
        ∃ t id, event = .frLink t id ∧ isLinkType t = true ∧ body = linkBody t id)

/-- The buffer's bytes at or beyond `FR_N` are never observed: of two states whose framers differ only there, whatever
step the one takes (any command, the reset input, or waiting), the other takes it too, with the same responses and
nothing different after it but, again, such bytes. With FramerInvariantKept this carries over to every run. So the reset
contents of `FR_BUF`, the model's choice (log 6), show nowhere. -/
def Obligations.StaleBufferBytesNeverObserved : Prop :=
  ∀ s s' t : State,
    s.framer.Inv → s' = { s with framer := s'.framer } → s.framer.AgreesBelowN s'.framer → step s = .next t →
    ∃ t', step s' = .next t' ∧ t'.responses = t.responses ∧ t' = { t with framer := t'.framer } ∧
      t.framer.AgreesBelowN t'.framer

/-! ## Transport -/

/-- TP_REGISTER: the slot of its port is overwritten, no other slot and no other state changes, and a registrant with an
event handler gets the last event; PARAM_INVALID on an operand out of range; ILLEGAL_COMMAND if `LEN` is set. -/
def Obligations.TpRegisterResult : Prop :=
  (∀ (s : State) (a : BitVec 8) (flags userData portMeta : Word64) (p : BitVec 5),
    p.toNat = a.toNat → flags.toNat ≤ 3 →
    ∃ tp : Transport,
      exec (.tpRegister a flags userData portMeta) s = .next { s with
        transport := tp
        responses := s.responses ++ [okResponse [] []
          (if flags.toNat % 2 = 1 then [.portEvent (.port p) userData s.transport.lastEvent] else [])] } ∧
      tp.slot p =
        { evEn := decide (flags.toNat % 2 = 1), rxEn := decide (flags.toNat / 2 = 1)
          userData := userData, portMeta := portMeta } ∧
      (∀ q, q ≠ p → tp.slot q = s.transport.slot q) ∧
      tp.deflt = s.transport.deflt ∧ tp.lastEvent = s.transport.lastEvent) ∧
  (∀ (s : State) (a : BitVec 8) (flags userData portMeta : Word64), 31 < a.toNat ∨ 3 < flags.toNat →
    exec (.tpRegister a flags userData portMeta) s = .next (answered s (failedResponse .paramInvalid 0))) ∧
  AnswersIllegal 0x30 0 fun tx => tx.len ≠ 0

/-- TP_REGISTER_DEFAULT: the default slot is overwritten, nothing else changes, and a default with an event handler gets
the last event; PARAM_INVALID for flags out of range; ILLEGAL_COMMAND if a reserved field is set. -/
def Obligations.TpRegisterDefaultResult : Prop :=
  (∀ (s : State) (flags userData : Word64), flags.toNat ≤ 3 →
    exec (.tpRegisterDefault flags userData) s = .next { s with
      transport := { s.transport with
        deflt :=
          { evEn := decide (flags.toNat % 2 = 1), rxEn := decide (flags.toNat / 2 = 1), userData := userData } }
      responses := s.responses ++ [okResponse [] []
        (if flags.toNat % 2 = 1 then [.portEvent .dflt userData s.transport.lastEvent] else [])] }) ∧
  (∀ (s : State) (flags userData : Word64), 3 < flags.toNat →
    exec (.tpRegisterDefault flags userData) s = .next (answered s (failedResponse .paramInvalid 0))) ∧
  AnswersIllegal 0x31 0 fun tx => tx.a ≠ 0 ∨ tx.len ≠ 0

/-- TP_SEND: the packed metadata and the message go out in one event and the lower layer's code comes back; a nonzero
code is LL_ERROR, which keeps both; nothing changes; PARAM_INVALID on an operand out of range. -/
def Obligations.TpSendResult : Prop :=
  (∀ (s : State) (a : BitVec 8) (seq portData : Word64) (data : List Byte),
    a.toNat ≤ 31 → seq.toNat ≤ 3 → portData.toNat ≤ 0xFF →
    exec (.tpSend a seq portData data) s = .next (answered s
      { status := if s.env.llStatus = 0 then .ok else .llError
        res := [BitVec.ofNat 64 s.env.llStatus.toNat], out := []
        events := [.llSend (BitVec.ofNat 16 (64 * seq.toNat + a.toNat + 256 * portData.toNat)) data] })) ∧
  ∀ (s : State) (a : BitVec 8) (seq portData : Word64) (data : List Byte),
    31 < a.toNat ∨ 3 < seq.toNat ∨ 0xFF < portData.toNat →
    exec (.tpSend a seq portData data) s = .next (answered s (failedResponse .paramInvalid 1))

/-- TP_EVENT: a cached code becomes the last event, every other code leaves it; the event goes to every port with an
event handler, ascending, then to the default; nothing else changes; ILLEGAL_COMMAND if `LEN` is set. -/
def Obligations.TpEventResult : Prop :=
  (∀ (s : State) (a : BitVec 8), exec (.tpEvent a) s = .next { s with
    transport := { s.transport with
      lastEvent := if a = 1 ∨ a = 2 ∨ a = 3 ∨ a = 4 then a else s.transport.lastEvent }
    responses := s.responses ++ [okResponse [] []
      (((List.range 32).filterMap fun p =>
          let slot := s.transport.slot (BitVec.ofNat 5 p)
          if slot.evEn then some (.portEvent (.port (BitVec.ofNat 5 p)) slot.userData a) else none) ++
        if s.transport.deflt.evEn then [.portEvent .dflt s.transport.deflt.userData a] else [])] }) ∧
  AnswersIllegal 0x33 0 fun tx => tx.len ≠ 0

/-- TP_RECV: the message is delivered to its port, else to the default, else dropped, always with OK; nothing changes;
PARAM_INVALID for a metadata word out of range; ILLEGAL_COMMAND if `A` is set. -/
def Obligations.TpRecvResult : Prop :=
  (∀ (s : State) (metadata : Word64) (data : List Byte), metadata.toNat ≤ 0xFFFF →
    let p : BitVec 5 := BitVec.ofNat 5 metadata.toNat
    let sq : BitVec 2 := BitVec.ofNat 2 (metadata.toNat / 64)
    let pd : BitVec 8 := BitVec.ofNat 8 (metadata.toNat / 256)
    let slot := s.transport.slot p
    exec (.tpRecv metadata data) s = .next (answered s (okResponse [] []
      (if slot.rxEn then [.portRecv (.port p) slot.userData p sq pd data]
        else if s.transport.deflt.rxEn then [.portRecv .dflt s.transport.deflt.userData p sq pd data]
        else [])))) ∧
  (∀ (s : State) (metadata : Word64) (data : List Byte), 0xFFFF < metadata.toNat →
    exec (.tpRecv metadata data) s = .next (answered s (failedResponse .paramInvalid 0))) ∧
  AnswersIllegal 0x34 0 fun tx => tx.a ≠ 0

/-- Port isolation: a message whose metadata names port A is delivered at most once, to A or to the default and to no
other port, and to nobody where neither has a receive handler. -/
def Obligations.PortIsolation : Prop :=
  ∀ (s t : State) (metadata : Word64) (data : List Byte) (r : Response),
    metadata.toNat ≤ 0xFFFF → exec (.tpRecv metadata data) s = .next t → t.responses = s.responses ++ [r] →
    let p : BitVec 5 := BitVec.ofNat 5 metadata.toNat
    r.events.length ≤ 1 ∧
    (∀ e ∈ r.events, ∃ dest ud sq pd, e = .portRecv dest ud p sq pd data ∧ (dest = .port p ∨ dest = .dflt)) ∧
    ((s.transport.slot p).rxEn = false → s.transport.deflt.rxEn = false → r.events = [])

/-- Packing and unpacking the metadata word: the packed word is the document's sum, its bit 5 is 0, and unpacking gives
the three operands back; unpacking ignores bit 5. -/
def Obligations.MetadataPackUnpack : Prop :=
  (∀ (p : BitVec 5) (sq : BitVec 2) (pd : BitVec 8),
    (packMetadata p sq pd).toNat = 64 * sq.toNat + p.toNat + 256 * pd.toNat ∧
    (packMetadata p sq pd).getLsbD 5 = false ∧
    mdPortId (packMetadata p sq pd) = p ∧ mdSeq (packMetadata p sq pd) = sq ∧
    mdPortData (packMetadata p sq pd) = pd) ∧
  ∀ md : BitVec 16,
    ((mdPortId md).toNat = md.toNat % 32 ∧ (mdSeq md).toNat = md.toNat / 64 % 4 ∧
      (mdPortData md).toNat = md.toNat / 256) ∧
    mdPortId (md ||| 0x20) = mdPortId md ∧ mdSeq (md ||| 0x20) = mdSeq md ∧ mdPortData (md ||| 0x20) = mdPortData md

/-- Sequence pass-through: what TP_SEND hands down for a port with a receive handler, TP_RECV delivers to that port with
the same tag, port data and message, whatever the lower layer answered. -/
def Obligations.SequencePassThrough : Prop :=
  ∀ (s : State) (p : BitVec 5) (sq : BitVec 2) (pd : BitVec 8) (msg : List Byte),
    (s.transport.slot p).rxEn = true →
    ∃ t u md r,
      exec (.tpSend (p.setWidth 8) (sq.setWidth 64) (pd.setWidth 64) msg) s = .next t ∧
      t.responses = s.responses ++ [r] ∧ r.events = [.llSend md msg] ∧
      exec (.tpRecv (md.setWidth 64) msg) t = .next u ∧
      u.responses = t.responses ++ [okResponse [] []
        [.portRecv (.port p) (s.transport.slot p).userData p sq pd msg]]

/-- Every step keeps `TP_LAST_EVENT` one of the four cached codes. -/
def Obligations.LastEventStaysCached : Prop :=
  ∀ s t : State, s.transport.Inv → step s = .next t → t.transport.Inv

/-- `META` is stored and never read: clearing every slot's `META` changes no response of any command and nothing of the
next state but `META` itself. -/
def Obligations.MetaIsNeverRead : Prop :=
  ∀ (i : Instr) (s t : State), exec i s = .next t →
    ∃ t', exec i (eraseMeta s) = .next t' ∧ t'.responses = t.responses ∧ eraseMeta t' = eraseMeta t

/-! ## Time-sync -/

/-- TS_RESET: every filter element at its reset value, nothing else changed; ILLEGAL_COMMAND if a reserved field is
set. -/
def Obligations.TsResetResult : Prop :=
  (∀ s : State, ∃ ts : TimeSync,
    exec .tsReset s = .next { s with timeSync := ts, responses := s.responses ++ [okResponse [] [] []] } ∧
    ts.timeOffset = 0 ∧ ts.counterOffset = 0 ∧
    (s.params.Legal → ts.scale.toNat = (2 ^ 63 + s.params.counterHz) / (2 * s.params.counterHz)) ∧
    ts.ds = 0 ∧ ts.pTT = 0 ∧ ts.pTS = 0 ∧ ts.pSS = 0 ∧
    (∀ k : BitVec 4, ts.entry k = { counter := 0, time := 0, dcounter := 0 }) ∧ ts.head = 0 ∧ ts.nhist = 0) ∧
  AnswersIllegal 0x40 0 fun tx => tx.a ≠ 0 ∨ tx.len ≠ 0

/-- TS_READ: the three coefficients and the flag word, bit 0 the synchronised flag, bits 7:4 the history count, every
other bit 0; nothing changed; ILLEGAL_COMMAND if a reserved field is set. -/
def Obligations.TsReadResult : Prop :=
  (∀ s : State, exec .tsRead s = .next (answered s (okResponse
    [s.timeSync.timeOffset, s.timeSync.counterOffset, s.timeSync.scale,
      BitVec.ofNat 64 ((if 0 < s.timeSync.nhist.toNat then 1 else 0) + 16 * s.timeSync.nhist.toNat)] [] []))) ∧
  AnswersIllegal 0x43 4 fun tx => tx.a ≠ 0 ∨ tx.len ≠ 0

/-- TS_TIME: the time the coefficients give for the live counter, floored and saturated as R264 says; nothing changed;
ILLEGAL_COMMAND if a reserved field is set. -/
def Obligations.TsTimeResult : Prop :=
  (∀ s : State,
    let raw : Int := s.timeSync.timeOffset.toInt +
      ((s.env.counter.toNat : Int) - s.timeSync.counterOffset.toNat) * s.timeSync.scale.toNat / 2 ^ 32
    exec .tsTime s = .next (answered s (okResponse
      [BitVec.ofInt 64 (min (max raw (-2 ^ 63)) (2 ^ 63 - 1))] [] []))) ∧
  AnswersIllegal 0x42 1 fun tx => tx.a ≠ 0 ∨ tx.len ≠ 0

/-- TS_UPDATE's three rejections, in their order, with their outcome codes; each answers OK and writes nothing. Every
sample is answered OK with one of the seven outcome codes. ILLEGAL_COMMAND if a reserved field is set. -/
def Obligations.TsUpdateRejections : Prop :=
  (∀ (s : State) (srcTx tgtRx tgtTx srcRx : Word64),
    let noTime : Prop := tgtRx.toInt = 0 ∨ tgtTx.toInt = 0
    let backwards : Prop := srcTx.toNat > srcRx.toNat ∨ tgtRx.toInt > tgtTx.toInt
    let c := srcTx.toNat + (srcRx.toNat - srcTx.toNat) / 2
    let stale : Prop :=
      s.timeSync.nhist ≠ 0 ∧ c ≤ (s.timeSync.entry (s.timeSync.head - 1)).counter.toNat
    (noTime → exec (.tsUpdate srcTx tgtRx tgtTx srcRx) s = .next (answered s (okResponse [1] [] []))) ∧
    (¬ noTime → backwards →
      exec (.tsUpdate srcTx tgtRx tgtTx srcRx) s = .next (answered s (okResponse [2] [] []))) ∧
    (¬ noTime → ¬ backwards → stale →
      exec (.tsUpdate srcTx tgtRx tgtTx srcRx) s = .next (answered s (okResponse [3] [] []))) ∧
    ∃ (outcome : Word64) (ts : TimeSync), outcome.toNat ≤ 6 ∧ exec (.tsUpdate srcTx tgtRx tgtTx srcRx) s = .next { s with
      timeSync := ts, responses := s.responses ++ [okResponse [outcome] [] []] }) ∧
  AnswersIllegal 0x41 1 fun tx => tx.a ≠ 0 ∨ tx.len ≠ 0

/-- TS_UPDATE bootstraps: with no history an accepted sample is pushed and becomes the coefficients, at the nominal
scale and the initial covariance; and TS_TIME at its counter then returns its time exactly. -/
def Obligations.TsUpdateBootstraps : Prop :=
  ∀ (s : State) (srcTx tgtRx tgtTx srcRx : Word64),
    s.params.Legal → s.timeSync.nhist = 0 → tgtRx.toInt ≠ 0 → tgtTx.toInt ≠ 0 →
    srcTx.toNat ≤ srcRx.toNat → tgtRx.toInt ≤ tgtTx.toInt →
    let half := (srcRx.toNat - srcTx.toNat) / 2
    let c : Word64 := BitVec.ofNat 64 (srcTx.toNat + half)
    let t : Word64 := BitVec.ofInt 64 (tgtRx.toInt + (tgtTx.toInt - tgtRx.toInt) / 2)
    ∃ u ts,
      exec (.tsUpdate srcTx tgtRx tgtTx srcRx) s = .next u ∧
      u = { s with timeSync := ts, responses := s.responses ++ [okResponse [4] [] []] } ∧
      ts = { s.timeSync with
        counterOffset := c, timeOffset := t, ds := 0, nhist := 1, head := s.timeSync.head + 1
        scale := BitVec.ofNat 64 ((2 ^ 63 + s.params.counterHz) / (2 * s.params.counterHz))
        pTT := BitVec.ofNat 128 (2 ^ 72), pTS := 0, pSS := BitVec.ofNat 128 (2 ^ 66)
        fifo := s.timeSync.fifo.set s.timeSync.head.toNat
          { counter := c, time := t, dcounter := BitVec.ofNat 64 half } s.timeSync.head.isLt } ∧
      ∀ ll : BitVec 32,
        exec .tsTime { u with env := { counter := c, llStatus := ll } } =
          .next (answered { u with env := { counter := c, llStatus := ll } } (okResponse [t] [] []))

/-- TS_UPDATE force-resyncs: an accepted sample whose time differs from the prediction by more than one second is pushed,
empties the history and changes nothing else of the filter; a difference of exactly one second does not. -/
def Obligations.TsUpdateForceResync : Prop :=
  ∀ (s : State) (srcTx tgtRx tgtTx srcRx : Word64),
    s.timeSync.nhist ≠ 0 → tgtRx.toInt ≠ 0 → tgtTx.toInt ≠ 0 →
    srcTx.toNat ≤ srcRx.toNat → tgtRx.toInt ≤ tgtTx.toInt →
    let half := (srcRx.toNat - srcTx.toNat) / 2
    let c := srcTx.toNat + half
    let t : Int := tgtRx.toInt + (tgtTx.toInt - tgtRx.toInt) / 2
    let tp : Int := min (max (s.timeSync.timeOffset.toInt +
      ((c : Int) - s.timeSync.counterOffset.toNat) * s.timeSync.scale.toNat / 2 ^ 32) (-2 ^ 63)) (2 ^ 63 - 1)
    (s.timeSync.entry (s.timeSync.head - 1)).counter.toNat < c →
    ∃ o ts,
      exec (.tsUpdate srcTx tgtRx tgtTx srcRx) s = .next { s with
        timeSync := ts, responses := s.responses ++ [okResponse [o] [] []] } ∧
      (o = 5 ↔ |t - tp| > 2 ^ 30) ∧
      (o = 5 → ts = { s.timeSync with
        nhist := 0, head := s.timeSync.head + 1
        fifo := s.timeSync.fifo.set s.timeSync.head.toNat
          { counter := BitVec.ofNat 64 c, time := BitVec.ofInt 64 t, dcounter := BitVec.ofNat 64 half }
          s.timeSync.head.isLt })

/-- TS_UPDATE's predict-and-correct step within the one-second guard, from a filter that meets its invariant, formula by
formula: the full correction, outcome 0, or the prediction alone where the innovation covariance is singular,
outcome 6. -/
def Obligations.TsUpdatePredictsAndCorrects : Prop :=
  ∀ (s : State) (srcTx tgtRx tgtTx srcRx : Word64),
    s.params.Legal → s.timeSync.Inv s.params → s.timeSync.nhist ≠ 0 →
    tgtRx.toInt ≠ 0 → tgtTx.toInt ≠ 0 → srcTx.toNat ≤ srcRx.toNat → tgtRx.toInt ≤ tgtTx.toInt →
    let ts := s.timeSync
    let f : Int := s.params.counterHz
    let m := s.params.updateProcessMax
    let sat (v : Int) : Int := min (max v (-2 ^ 127)) (2 ^ 127 - 1)
    let mul (a b : Int) : Int := sat (a * b / 2 ^ 32)
    let div (a b : Int) : Int := sat (a * 2 ^ 32 / b)
    let dcnt : Int := ((srcRx.toNat : Int) - srcTx.toNat) / 2
    let c : Int := srcTx.toNat + dcnt
    let t : Int := tgtRx.toInt + (tgtTx.toInt - tgtRx.toInt) / 2
    let ref := ts.entry (ts.head - ts.nhist)
    let D : Int := (c - ts.counterOffset.toNat) * 2 ^ 32 / f
    let tp : Int := min (max (ts.timeOffset.toInt + (c - ts.counterOffset.toNat) * ts.scale.toNat / 2 ^ 32)
      (-2 ^ 63)) (2 ^ 63 - 1)
    let qd := mul 46116860184 D
    let qq := mul qd qd
    let ptt := sat (ts.pTT.toInt + 2 * mul D ts.pTS.toInt + mul (mul D D) ts.pSS.toInt + qq)
    let pts := sat (ts.pTS.toInt + mul D ts.pSS.toInt)
    let pss := sat (ts.pSS.toInt + qq)
    let yt : Int := (t - tp) * 2 ^ 32
    let sigT : Int := dcnt * 2 ^ 62 / f
    let rtt := max (mul sigT sigT) (2 ^ 32)
    let dkr : Int := c - ref.counter.toNat
    let tkr : Int := t - ref.time.toInt
    let zs : Int := (tkr * f * 2 ^ 32 - dkr * 2 ^ 62) / dkr
    let ys := sat (zs - ts.ds.toInt)
    let sigS : Int := (dcnt + ref.dcounter.toNat) * 2 ^ 62 / dkr
    let rss := max (mul sigS sigS) (2 ^ 32)
    let stt := sat (ptt + rtt)
    let sss := sat (pss + rss)
    let det := sat (mul stt sss - mul pts pts)
    let ktt := div (sat (mul ptt sss - mul pts pts)) det
    let kts := div (sat (mul pts stt - mul ptt pts)) det
    let kst := div (sat (mul pts sss - mul pss pts)) det
    let kss := div (sat (mul pss stt - mul pts pts)) det
    let dtau := sat (mul ktt yt + mul kts ys)
    let dsig := sat (mul kst yt + mul kss ys)
    let ds := sat (ts.ds.toInt + dsig)
    let nom : Int := (2 ^ 63 + f) / (2 * f)
    let pushed : TimeSync := { ts with
      counterOffset := BitVec.ofInt 64 c, nhist := BitVec.ofNat 4 (min (ts.nhist.toNat + 1) m), head := ts.head + 1
      fifo := ts.fifo.set ts.head.toNat
        { counter := BitVec.ofInt 64 c, time := BitVec.ofInt 64 t, dcounter := BitVec.ofInt 64 dcnt } ts.head.isLt }
    ((ts.entry (ts.head - 1)).counter.toNat : Int) < c → |t - tp| ≤ 2 ^ 30 →
    (0 < det → exec (.tsUpdate srcTx tgtRx tgtTx srcRx) s = .next { s with
      timeSync := { pushed with
        timeOffset := BitVec.ofInt 64 (min (max (tp + dtau / 2 ^ 32) (-2 ^ 63)) (2 ^ 63 - 1))
        ds := BitVec.ofInt 128 ds
        scale := BitVec.ofInt 64 (min (max (nom + nom * ds / 2 ^ 62) 1) (2 ^ 64 - 1))
        pTT := BitVec.ofInt 128 (sat (ptt - (mul ktt ptt + mul kts pts)))
        pTS := BitVec.ofInt 128 (sat (pts - (mul ktt pts + mul kts pss)))
        pSS := BitVec.ofInt 128 (sat (pss - (mul kst pts + mul kss pss))) }
      responses := s.responses ++ [okResponse [0] [] []] }) ∧
    (det ≤ 0 → exec (.tsUpdate srcTx tgtRx tgtTx srcRx) s = .next { s with
      timeSync := { pushed with
        timeOffset := BitVec.ofInt 64 tp
        pTT := BitVec.ofInt 128 ptt, pTS := BitVec.ofInt 128 pts, pSS := BitVec.ofInt 128 pss }
      responses := s.responses ++ [okResponse [6] [] []] })

/-- Every step keeps the filter's invariant, under legal parameters: the history count within M, the scale positive, the
newest history counter the committed one, and the history counters strictly rising. -/
def Obligations.TimeSyncInvariantKept : Prop :=
  ∀ s t : State, s.params.Legal → s.timeSync.Inv s.params → step s = .next t → t.timeSync.Inv t.params

/-- The counter spans the filter divides by are positive: from a filter that meets its invariant, a sample that advances
past the last one pushed lies strictly after the committed counter and after the reference entry, which is another slot
than the one it is pushed into. -/
def Obligations.CounterSpansArePositive : Prop :=
  ∀ (p : Params) (ts : TimeSync) (x : RoundTrip), p.Legal → ts.Inv p → ts.nhist ≠ 0 →
    u64 (ts.entry (ts.head - 1)).counter < x.c →
    0 < x.c - u64 ts.counterOffset ∧
    (ts.push x).entry (ts.head - ts.nhist) = ts.entry (ts.head - ts.nhist) ∧
    0 < x.c - u64 (ts.entry (ts.head - ts.nhist)).counter

/-- The machine's invariant holds right after reset, for every legal choice of the open parameters, and for the model's
own choice of them (log 4). -/
def Obligations.ResetMeetsTheInvariant : Prop :=
  (∀ p : Params, p.Legal → (State.resetWith p).Inv) ∧ State.reset.Inv

/-! ## Assembler syntax -/

/-- The assembler's worked example (R119), and the expansions of the five pseudo-commands (R120), on lines of text. How
a line of text is read (blanks, letter case, where `data=` may stand) is the model's choice (log 15). -/
def Obligations.AssemblerLinesAndPseudoCommands : Prop :=
  assemble "TP_SEND port=3, seq=SINGLE, pd=0x5A, data=[01 02]" = some ⟨0x32030002, [3, 0x5A], [1, 2]⟩ ∧
  assemble "CRC8.START data=[55 00]" = assemble "CRC8 crc=0x00, data=[55 00]" ∧
  assemble "CRC8 crc=0x00, data=[55 00]" = some (encode (.crc8 0x00 [0x55, 0x00])) ∧
  assemble "CRC16.START data=[55 00]" = assemble "CRC16 crc=0xFFFF, data=[55 00]" ∧
  assemble "CRC16 crc=0xFFFF, data=[55 00]" = some (encode (.crc16 0xFFFF [0x55, 0x00])) ∧
  assemble "CRC32.START data=[55 00]" = assemble "CRC32 crc=0x00000000, data=[55 00]" ∧
  assemble "CRC32 crc=0x00000000, data=[55 00]" = some (encode (.crc32 0x00000000 [0x55, 0x00])) ∧
  assemble "TP_DEREGISTER port=7" = assemble "TP_REGISTER port=7, flags=0, ud=0, meta=0" ∧
  assemble "TP_REGISTER port=7, flags=0, ud=0, meta=0" = some (encode (.tpRegister 7 0 0 0)) ∧
  assemble "TP_DEREGISTER_DEFAULT ; the catch-all" = assemble "TP_REGISTER_DEFAULT flags=0, ud=0" ∧
  assemble "TP_REGISTER_DEFAULT flags=0, ud=0" = some (encode (.tpRegisterDefault 0 0))
end

