-- ==== Sys2Proof/Laws/State.lean ====
section
/-! SUPPORT. One lemma per field of each named update, true by rfl, so that no proof unfolds a record update. -/

namespace Sys2Proof.Machine

/-! ## Responses -/

@[simp] theorem respond_params (r : Response) (s : State) :
    (respond r s).params = s.params := rfl

@[simp] theorem respond_framer (r : Response) (s : State) :
    (respond r s).framer = s.framer := rfl

@[simp] theorem respond_transport (r : Response) (s : State) :
    (respond r s).transport = s.transport := rfl

@[simp] theorem respond_timeSync (r : Response) (s : State) :
    (respond r s).timeSync = s.timeSync := rfl

@[simp] theorem respond_port (r : Response) (s : State) :
    (respond r s).port = s.port := rfl

@[simp] theorem respond_env (r : Response) (s : State) :
    (respond r s).env = s.env := rfl

@[simp] theorem respond_pos (r : Response) (s : State) :
    (respond r s).pos = s.pos := rfl

@[simp] theorem respond_responses (r : Response) (s : State) :
    (respond r s).responses = s.responses ++ [r] := rfl


/-! ## The port -/

@[simp] theorem acceptCommand_params (env : EnvInputs) (rest : List HostInput) (s : State) :
    (acceptCommand env rest s).params = s.params := rfl

@[simp] theorem acceptCommand_framer (env : EnvInputs) (rest : List HostInput) (s : State) :
    (acceptCommand env rest s).framer = s.framer := rfl

@[simp] theorem acceptCommand_transport (env : EnvInputs) (rest : List HostInput) (s : State) :
    (acceptCommand env rest s).transport = s.transport := rfl

@[simp] theorem acceptCommand_timeSync (env : EnvInputs) (rest : List HostInput) (s : State) :
    (acceptCommand env rest s).timeSync = s.timeSync := rfl

@[simp] theorem acceptCommand_port (env : EnvInputs) (rest : List HostInput) (s : State) :
    (acceptCommand env rest s).port = rest := rfl

@[simp] theorem acceptCommand_env (env : EnvInputs) (rest : List HostInput) (s : State) :
    (acceptCommand env rest s).env = env := rfl

@[simp] theorem acceptCommand_pos (env : EnvInputs) (rest : List HostInput) (s : State) :
    (acceptCommand env rest s).pos = s.pos + 1 := rfl

@[simp] theorem acceptCommand_responses (env : EnvInputs) (rest : List HostInput) (s : State) :
    (acceptCommand env rest s).responses = s.responses := rfl

@[simp] theorem takeGlobalReset_params (rest : List HostInput) (s : State) :
    (takeGlobalReset rest s).params = s.params := rfl

@[simp] theorem takeGlobalReset_framer (rest : List HostInput) (s : State) :
    (takeGlobalReset rest s).framer = Framer.reset := rfl

@[simp] theorem takeGlobalReset_transport (rest : List HostInput) (s : State) :
    (takeGlobalReset rest s).transport = Transport.reset := rfl

@[simp] theorem takeGlobalReset_timeSync (rest : List HostInput) (s : State) :
    (takeGlobalReset rest s).timeSync = TimeSync.reset s.params.counterHz := rfl

@[simp] theorem takeGlobalReset_port (rest : List HostInput) (s : State) :
    (takeGlobalReset rest s).port = rest := rfl

@[simp] theorem takeGlobalReset_env (rest : List HostInput) (s : State) :
    (takeGlobalReset rest s).env = s.env := rfl

@[simp] theorem takeGlobalReset_pos (rest : List HostInput) (s : State) :
    (takeGlobalReset rest s).pos = s.pos := rfl

@[simp] theorem takeGlobalReset_responses (rest : List HostInput) (s : State) :
    (takeGlobalReset rest s).responses = s.responses := rfl

@[simp] theorem present_params (x : HostInput) (s : State) :
    (present x s).params = s.params := rfl

@[simp] theorem present_framer (x : HostInput) (s : State) :
    (present x s).framer = s.framer := rfl

@[simp] theorem present_transport (x : HostInput) (s : State) :
    (present x s).transport = s.transport := rfl

@[simp] theorem present_timeSync (x : HostInput) (s : State) :
    (present x s).timeSync = s.timeSync := rfl

@[simp] theorem present_port (x : HostInput) (s : State) :
    (present x s).port = x :: s.port := rfl

@[simp] theorem present_env (x : HostInput) (s : State) :
    (present x s).env = s.env := rfl

@[simp] theorem present_pos (x : HostInput) (s : State) :
    (present x s).pos = s.pos := rfl

@[simp] theorem present_responses (x : HostInput) (s : State) :
    (present x s).responses = s.responses := rfl


/-! ## The framer -/

@[simp] theorem Framer.setByte_state (fr : Framer) (i : Nat) (b : Byte) :
    (fr.setByte i b).state = fr.state := rfl

@[simp] theorem Framer.setByte_isSync (fr : Framer) (i : Nat) (b : Byte) :
    (fr.setByte i b).isSync = fr.isSync := rfl

@[simp] theorem Framer.setByte_buf (fr : Framer) (i : Nat) (b : Byte) :
    (fr.setByte i b).buf = fr.buf.setIfInBounds i b := rfl

@[simp] theorem Framer.setByte_n (fr : Framer) (i : Nat) (b : Byte) :
    (fr.setByte i b).n = fr.n := rfl

@[simp] theorem Framer.setByte_target (fr : Framer) (i : Nat) (b : Byte) :
    (fr.setByte i b).target = fr.target := rfl

@[simp] theorem Framer.setByte_totalBytes (fr : Framer) (i : Nat) (b : Byte) :
    (fr.setByte i b).totalBytes = fr.totalBytes := rfl

@[simp] theorem Framer.setByte_ignoredBytes (fr : Framer) (i : Nat) (b : Byte) :
    (fr.setByte i b).ignoredBytes = fr.ignoredBytes := rfl

@[simp] theorem Framer.setByte_resyncCount (fr : Framer) (i : Nat) (b : Byte) :
    (fr.setByte i b).resyncCount = fr.resyncCount := rfl

@[simp] theorem Framer.storeAt_state (fr : Framer) (i : Nat) (b : Byte) :
    (fr.storeAt i b).state = fr.state := rfl

@[simp] theorem Framer.storeAt_isSync (fr : Framer) (i : Nat) (b : Byte) :
    (fr.storeAt i b).isSync = fr.isSync := rfl

@[simp] theorem Framer.storeAt_buf (fr : Framer) (i : Nat) (b : Byte) :
    (fr.storeAt i b).buf = fr.buf.setIfInBounds i b := rfl

@[simp] theorem Framer.storeAt_n (fr : Framer) (i : Nat) (b : Byte) :
    (fr.storeAt i b).n = i + 1 := rfl

@[simp] theorem Framer.storeAt_target (fr : Framer) (i : Nat) (b : Byte) :
    (fr.storeAt i b).target = fr.target := rfl

@[simp] theorem Framer.storeAt_totalBytes (fr : Framer) (i : Nat) (b : Byte) :
    (fr.storeAt i b).totalBytes = fr.totalBytes := rfl

@[simp] theorem Framer.storeAt_ignoredBytes (fr : Framer) (i : Nat) (b : Byte) :
    (fr.storeAt i b).ignoredBytes = fr.ignoredBytes := rfl

@[simp] theorem Framer.storeAt_resyncCount (fr : Framer) (i : Nat) (b : Byte) :
    (fr.storeAt i b).resyncCount = fr.resyncCount := rfl

@[simp] theorem Framer.ignoreByte_state (fr : Framer) :
    (fr.ignoreByte).state = fr.state := rfl

@[simp] theorem Framer.ignoreByte_isSync (fr : Framer) :
    (fr.ignoreByte).isSync = fr.isSync := rfl

@[simp] theorem Framer.ignoreByte_buf (fr : Framer) :
    (fr.ignoreByte).buf = fr.buf := rfl

@[simp] theorem Framer.ignoreByte_n (fr : Framer) :
    (fr.ignoreByte).n = fr.n := rfl

@[simp] theorem Framer.ignoreByte_target (fr : Framer) :
    (fr.ignoreByte).target = fr.target := rfl

@[simp] theorem Framer.ignoreByte_totalBytes (fr : Framer) :
    (fr.ignoreByte).totalBytes = fr.totalBytes := rfl

@[simp] theorem Framer.ignoreByte_ignoredBytes (fr : Framer) :
    (fr.ignoreByte).ignoredBytes = fr.ignoredBytes + 1 := rfl

@[simp] theorem Framer.ignoreByte_resyncCount (fr : Framer) :
    (fr.ignoreByte).resyncCount = fr.resyncCount := rfl


/-! ## The Transport -/

@[simp] theorem Transport.setSlot_ports (tp : Transport) (p : BitVec 5) (v : PortSlot) :
    (tp.setSlot p v).ports = tp.ports.set p.toNat v p.isLt := rfl

@[simp] theorem Transport.setSlot_deflt (tp : Transport) (p : BitVec 5) (v : PortSlot) :
    (tp.setSlot p v).deflt = tp.deflt := rfl

@[simp] theorem Transport.setSlot_lastEvent (tp : Transport) (p : BitVec 5) (v : PortSlot) :
    (tp.setSlot p v).lastEvent = tp.lastEvent := rfl


/-! ## The time-sync filter -/

@[simp] theorem TimeSync.setEntry_timeOffset (ts : TimeSync) (k : BitVec 4) (v : Sample) :
    (ts.setEntry k v).timeOffset = ts.timeOffset := rfl

@[simp] theorem TimeSync.setEntry_counterOffset (ts : TimeSync) (k : BitVec 4) (v : Sample) :
    (ts.setEntry k v).counterOffset = ts.counterOffset := rfl

@[simp] theorem TimeSync.setEntry_scale (ts : TimeSync) (k : BitVec 4) (v : Sample) :
    (ts.setEntry k v).scale = ts.scale := rfl

@[simp] theorem TimeSync.setEntry_ds (ts : TimeSync) (k : BitVec 4) (v : Sample) :
    (ts.setEntry k v).ds = ts.ds := rfl

@[simp] theorem TimeSync.setEntry_pTT (ts : TimeSync) (k : BitVec 4) (v : Sample) :
    (ts.setEntry k v).pTT = ts.pTT := rfl

@[simp] theorem TimeSync.setEntry_pTS (ts : TimeSync) (k : BitVec 4) (v : Sample) :
    (ts.setEntry k v).pTS = ts.pTS := rfl

@[simp] theorem TimeSync.setEntry_pSS (ts : TimeSync) (k : BitVec 4) (v : Sample) :
    (ts.setEntry k v).pSS = ts.pSS := rfl

@[simp] theorem TimeSync.setEntry_fifo (ts : TimeSync) (k : BitVec 4) (v : Sample) :
    (ts.setEntry k v).fifo = ts.fifo.set k.toNat v k.isLt := rfl

@[simp] theorem TimeSync.setEntry_head (ts : TimeSync) (k : BitVec 4) (v : Sample) :
    (ts.setEntry k v).head = ts.head := rfl

@[simp] theorem TimeSync.setEntry_nhist (ts : TimeSync) (k : BitVec 4) (v : Sample) :
    (ts.setEntry k v).nhist = ts.nhist := rfl

@[simp] theorem TimeSync.push_timeOffset (ts : TimeSync) (x : RoundTrip) :
    (ts.push x).timeOffset = ts.timeOffset := rfl

@[simp] theorem TimeSync.push_counterOffset (ts : TimeSync) (x : RoundTrip) :
    (ts.push x).counterOffset = ts.counterOffset := rfl

@[simp] theorem TimeSync.push_scale (ts : TimeSync) (x : RoundTrip) :
    (ts.push x).scale = ts.scale := rfl

@[simp] theorem TimeSync.push_ds (ts : TimeSync) (x : RoundTrip) :
    (ts.push x).ds = ts.ds := rfl

@[simp] theorem TimeSync.push_pTT (ts : TimeSync) (x : RoundTrip) :
    (ts.push x).pTT = ts.pTT := rfl

@[simp] theorem TimeSync.push_pTS (ts : TimeSync) (x : RoundTrip) :
    (ts.push x).pTS = ts.pTS := rfl

@[simp] theorem TimeSync.push_pSS (ts : TimeSync) (x : RoundTrip) :
    (ts.push x).pSS = ts.pSS := rfl

@[simp] theorem TimeSync.push_fifo (ts : TimeSync) (x : RoundTrip) :
    (ts.push x).fifo = ts.fifo.set ts.head.toNat
      { counter := wrapu64 x.c, time := wrapu64 x.t, dcounter := wrapu64 x.dcnt } ts.head.isLt := rfl

@[simp] theorem TimeSync.push_head (ts : TimeSync) (x : RoundTrip) :
    (ts.push x).head = ts.head + 1 := rfl

@[simp] theorem TimeSync.push_nhist (ts : TimeSync) (x : RoundTrip) :
    (ts.push x).nhist = ts.nhist := rfl

@[simp] theorem TimeSync.setCov_timeOffset (ts : TimeSync) (p : Cov) :
    (ts.setCov p).timeOffset = ts.timeOffset := rfl

@[simp] theorem TimeSync.setCov_counterOffset (ts : TimeSync) (p : Cov) :
    (ts.setCov p).counterOffset = ts.counterOffset := rfl

@[simp] theorem TimeSync.setCov_scale (ts : TimeSync) (p : Cov) :
    (ts.setCov p).scale = ts.scale := rfl

@[simp] theorem TimeSync.setCov_ds (ts : TimeSync) (p : Cov) :
    (ts.setCov p).ds = ts.ds := rfl

@[simp] theorem TimeSync.setCov_pTT (ts : TimeSync) (p : Cov) :
    (ts.setCov p).pTT = toFx p.tt := rfl

@[simp] theorem TimeSync.setCov_pTS (ts : TimeSync) (p : Cov) :
    (ts.setCov p).pTS = toFx p.ts := rfl

@[simp] theorem TimeSync.setCov_pSS (ts : TimeSync) (p : Cov) :
    (ts.setCov p).pSS = toFx p.ss := rfl

@[simp] theorem TimeSync.setCov_fifo (ts : TimeSync) (p : Cov) :
    (ts.setCov p).fifo = ts.fifo := rfl

@[simp] theorem TimeSync.setCov_head (ts : TimeSync) (p : Cov) :
    (ts.setCov p).head = ts.head := rfl

@[simp] theorem TimeSync.setCov_nhist (ts : TimeSync) (p : Cov) :
    (ts.setCov p).nhist = ts.nhist := rfl

@[simp] theorem TimeSync.bootstrap_timeOffset (ts : TimeSync) (f : Nat) (x : RoundTrip) :
    (ts.bootstrap f x).timeOffset = wrapu64 x.t := rfl

@[simp] theorem TimeSync.bootstrap_counterOffset (ts : TimeSync) (f : Nat) (x : RoundTrip) :
    (ts.bootstrap f x).counterOffset = wrapu64 x.c := rfl

@[simp] theorem TimeSync.bootstrap_scale (ts : TimeSync) (f : Nat) (x : RoundTrip) :
    (ts.bootstrap f x).scale = wrapu64 (scaleNom f) := rfl

@[simp] theorem TimeSync.bootstrap_ds (ts : TimeSync) (f : Nat) (x : RoundTrip) :
    (ts.bootstrap f x).ds = 0 := rfl

@[simp] theorem TimeSync.bootstrap_pTT (ts : TimeSync) (f : Nat) (x : RoundTrip) :
    (ts.bootstrap f x).pTT = toFx p0TT := rfl

@[simp] theorem TimeSync.bootstrap_pTS (ts : TimeSync) (f : Nat) (x : RoundTrip) :
    (ts.bootstrap f x).pTS = toFx p0TS := rfl

@[simp] theorem TimeSync.bootstrap_pSS (ts : TimeSync) (f : Nat) (x : RoundTrip) :
    (ts.bootstrap f x).pSS = toFx p0SS := rfl

@[simp] theorem TimeSync.bootstrap_fifo (ts : TimeSync) (f : Nat) (x : RoundTrip) :
    (ts.bootstrap f x).fifo = ts.fifo := rfl

@[simp] theorem TimeSync.bootstrap_head (ts : TimeSync) (f : Nat) (x : RoundTrip) :
    (ts.bootstrap f x).head = ts.head := rfl

@[simp] theorem TimeSync.bootstrap_nhist (ts : TimeSync) (f : Nat) (x : RoundTrip) :
    (ts.bootstrap f x).nhist = 1 := rfl

@[simp] theorem TimeSync.commit_timeOffset (ts : TimeSync) (p : Params) (x : RoundTrip) (tp dtau dsig : Int) (cov : Cov) :
    (ts.commit p x tp dtau dsig cov).timeOffset = wrapu64 (sat64 (tp + floorDiv dtau (2 ^ 32))) := rfl

@[simp] theorem TimeSync.commit_counterOffset (ts : TimeSync) (p : Params) (x : RoundTrip) (tp dtau dsig : Int) (cov : Cov) :
    (ts.commit p x tp dtau dsig cov).counterOffset = wrapu64 x.c := rfl

@[simp] theorem TimeSync.commit_scale (ts : TimeSync) (p : Params) (x : RoundTrip) (tp dtau dsig : Int) (cov : Cov) :
    (ts.commit p x tp dtau dsig cov).scale = wrapu64 (scaleOf p.counterHz (sat128 (ts.ds.toInt + dsig))) := rfl

@[simp] theorem TimeSync.commit_ds (ts : TimeSync) (p : Params) (x : RoundTrip) (tp dtau dsig : Int) (cov : Cov) :
    (ts.commit p x tp dtau dsig cov).ds = toFx (sat128 (ts.ds.toInt + dsig)) := rfl

@[simp] theorem TimeSync.commit_pTT (ts : TimeSync) (p : Params) (x : RoundTrip) (tp dtau dsig : Int) (cov : Cov) :
    (ts.commit p x tp dtau dsig cov).pTT = toFx cov.tt := rfl

@[simp] theorem TimeSync.commit_pTS (ts : TimeSync) (p : Params) (x : RoundTrip) (tp dtau dsig : Int) (cov : Cov) :
    (ts.commit p x tp dtau dsig cov).pTS = toFx cov.ts := rfl

@[simp] theorem TimeSync.commit_pSS (ts : TimeSync) (p : Params) (x : RoundTrip) (tp dtau dsig : Int) (cov : Cov) :
    (ts.commit p x tp dtau dsig cov).pSS = toFx cov.ss := rfl

@[simp] theorem TimeSync.commit_fifo (ts : TimeSync) (p : Params) (x : RoundTrip) (tp dtau dsig : Int) (cov : Cov) :
    (ts.commit p x tp dtau dsig cov).fifo = ts.fifo := rfl

@[simp] theorem TimeSync.commit_head (ts : TimeSync) (p : Params) (x : RoundTrip) (tp dtau dsig : Int) (cov : Cov) :
    (ts.commit p x tp dtau dsig cov).head = ts.head := rfl

@[simp] theorem TimeSync.commit_nhist (ts : TimeSync) (p : Params) (x : RoundTrip) (tp dtau dsig : Int) (cov : Cov) :
    (ts.commit p x tp dtau dsig cov).nhist = nextNhist p.updateProcessMax ts.nhist := rfl

@[simp] theorem TimeSync.commitPrediction_timeOffset (ts : TimeSync) (p : Params) (x : RoundTrip) (tp : Int) (cov : Cov) :
    (ts.commitPrediction p x tp cov).timeOffset = wrapu64 tp := rfl

@[simp] theorem TimeSync.commitPrediction_counterOffset (ts : TimeSync) (p : Params) (x : RoundTrip) (tp : Int) (cov : Cov) :
    (ts.commitPrediction p x tp cov).counterOffset = wrapu64 x.c := rfl

@[simp] theorem TimeSync.commitPrediction_scale (ts : TimeSync) (p : Params) (x : RoundTrip) (tp : Int) (cov : Cov) :
    (ts.commitPrediction p x tp cov).scale = ts.scale := rfl

@[simp] theorem TimeSync.commitPrediction_ds (ts : TimeSync) (p : Params) (x : RoundTrip) (tp : Int) (cov : Cov) :
    (ts.commitPrediction p x tp cov).ds = ts.ds := rfl

@[simp] theorem TimeSync.commitPrediction_pTT (ts : TimeSync) (p : Params) (x : RoundTrip) (tp : Int) (cov : Cov) :
    (ts.commitPrediction p x tp cov).pTT = toFx cov.tt := rfl

@[simp] theorem TimeSync.commitPrediction_pTS (ts : TimeSync) (p : Params) (x : RoundTrip) (tp : Int) (cov : Cov) :
    (ts.commitPrediction p x tp cov).pTS = toFx cov.ts := rfl

@[simp] theorem TimeSync.commitPrediction_pSS (ts : TimeSync) (p : Params) (x : RoundTrip) (tp : Int) (cov : Cov) :
    (ts.commitPrediction p x tp cov).pSS = toFx cov.ss := rfl

@[simp] theorem TimeSync.commitPrediction_fifo (ts : TimeSync) (p : Params) (x : RoundTrip) (tp : Int) (cov : Cov) :
    (ts.commitPrediction p x tp cov).fifo = ts.fifo := rfl

@[simp] theorem TimeSync.commitPrediction_head (ts : TimeSync) (p : Params) (x : RoundTrip) (tp : Int) (cov : Cov) :
    (ts.commitPrediction p x tp cov).head = ts.head := rfl

@[simp] theorem TimeSync.commitPrediction_nhist (ts : TimeSync) (p : Params) (x : RoundTrip) (tp : Int) (cov : Cov) :
    (ts.commitPrediction p x tp cov).nhist = nextNhist p.updateProcessMax ts.nhist := rfl

end Sys2Proof.Machine
end

