-- ==== Sys2Proof/Laws/Ops.lean ====
section
/-! SUPPORT. What each shared operation can answer, said once, and the read-after-write laws of the register files. -/

namespace Sys2Proof.Machine

/-! ## Responses -/

/-- A completed command answers exactly one next state: the state it was given and one `OK` response. -/
theorem complete_eq_next_iff (res : List Word64) (out : List Byte) (events : List Event) (s t : State) :
    complete res out events s = .next t ↔ t = respond (okResponse res out events) s := by
  constructor
  · intro h; cases h; rfl
  · rintro rfl; rfl

/-- A failing command answers exactly one next state: the state it was given and one zeroed response. -/
theorem raise_eq_next_iff (st : Status) (nres : Nat) (s t : State) :
    raise st nres s = .next t ↔ t = respond (failedResponse st nres) s := by
  constructor
  · intro h; cases h; rfl
  · rintro rfl; rfl

/-- `LL_ERROR` keeps the result and the event. -/
theorem completeLlError_eq_next_iff (res : List Word64) (events : List Event) (s t : State) :
    completeLlError res events s = .next t ↔
      t = respond { status := .llError, res := res, out := [], events := events } s := by
  constructor
  · intro h; cases h; rfl
  · rintro rfl; rfl

/-- A command the decoder rejects with ILLEGAL_COMMAND answers the zeroed response of its opcode. -/
theorem illegalCommand_eq_next_iff (opc : BitVec 8) (s t : State) :
    illegalCommand opc s = .next t ↔ t = respond (failedResponse .illegalCommand (nresOf opc)) s :=
  raise_eq_next_iff _ _ _ _

/-- Adding a response is `answered`, the form the statements use. -/
theorem respond_eq_answered (r : Response) (s : State) : respond r s = answered s r := rfl

/-! ## Step, by its input -/

/-- With nothing presented a step changes nothing. -/
theorem step_of_port_nil {s : State} (h : s.port = []) : step s = .next s := by
  simp [step, h]

/-- A step that takes the reset input. -/
theorem step_of_globalReset {s : State} {rest : List HostInput} (h : s.port = .globalReset :: rest) :
    step s = .next (takeGlobalReset rest s) := by
  simp [step, h]

/-- A step that takes a command the decoder reads. -/
theorem step_of_decode_ok {s : State} {tx : Transaction} {env : EnvInputs} {rest : List HostInput} {i : Instr}
    (h : s.port = .command tx env :: rest) (hd : decode tx = .ok i) :
    step s = exec i (acceptCommand env rest s) := by
  simp [step, h, hd]

/-- A step that takes a command with an unassigned opcode. -/
theorem step_of_decode_unassigned {s : State} {tx : Transaction} {env : EnvInputs} {rest : List HostInput}
    {opc : BitVec 8} (h : s.port = .command tx env :: rest) (hd : decode tx = .error (.unassignedOpcode opc)) :
    step s = illegalCommand opc (acceptCommand env rest s) := by
  simp [step, h, hd]

/-- A step that takes a command with a reserved field set. -/
theorem step_of_decode_reserved {s : State} {tx : Transaction} {env : EnvInputs} {rest : List HostInput}
    {opc : BitVec 8} (h : s.port = .command tx env :: rest) (hd : decode tx = .error (.reservedField opc)) :
    step s = illegalCommand opc (acceptCommand env rest s) := by
  simp [step, h, hd]

/-! ## The port table -/

@[simp] theorem Transport.slot_setSlot_self (tp : Transport) (p : BitVec 5) (v : PortSlot) :
    (tp.setSlot p v).slot p = v := by
  simp [Transport.slot, Transport.setSlot]

theorem Transport.slot_setSlot_ne (tp : Transport) {p q : BitVec 5} (v : PortSlot) (h : q ≠ p) :
    (tp.setSlot p v).slot q = tp.slot q := by
  have hn : p.toNat ≠ q.toNat := fun e => h (BitVec.eq_of_toNat_eq e.symm)
  simp [Transport.slot, Transport.setSlot, Vector.getElem_set_ne, hn]

/-! ## The sample FIFO -/

@[simp] theorem TimeSync.entry_setEntry_self (ts : TimeSync) (k : BitVec 4) (v : Sample) :
    (ts.setEntry k v).entry k = v := by
  simp [TimeSync.entry, TimeSync.setEntry]

theorem TimeSync.entry_setEntry_ne (ts : TimeSync) {k j : BitVec 4} (v : Sample) (h : j ≠ k) :
    (ts.setEntry k v).entry j = ts.entry j := by
  have hn : k.toNat ≠ j.toNat := fun e => h (BitVec.eq_of_toNat_eq e.symm)
  simp [TimeSync.entry, TimeSync.setEntry, Vector.getElem_set_ne, hn]

@[simp] theorem TimeSync.entry_push_self (ts : TimeSync) (x : RoundTrip) :
    (ts.push x).entry ts.head = { counter := wrapu64 x.c, time := wrapu64 x.t, dcounter := wrapu64 x.dcnt } :=
  TimeSync.entry_setEntry_self _ _ _

theorem TimeSync.entry_push_ne (ts : TimeSync) (x : RoundTrip) {j : BitVec 4} (h : j ≠ ts.head) :
    (ts.push x).entry j = ts.entry j :=
  TimeSync.entry_setEntry_ne _ _ h

/-! ## The framer's buffer -/

theorem Framer.byteAt_setByte_self (fr : Framer) {i : Nat} (b : Byte) (h : i < 269) :
    (fr.setByte i b).byteAt i = b := by
  simp [Framer.byteAt, Framer.setByte, Vector.getD, h]

theorem Framer.byteAt_setByte_ne (fr : Framer) {i j : Nat} (b : Byte) (h : j ≠ i) :
    (fr.setByte i b).byteAt j = fr.byteAt j := by
  by_cases hj : j < 269
  · simp [Framer.byteAt, Framer.setByte, Vector.getD, hj, h.symm]
  · simp [Framer.byteAt, Framer.setByte, Vector.getD, hj]

theorem Framer.byteAt_storeAt_self (fr : Framer) {i : Nat} (b : Byte) (h : i < 269) :
    (fr.storeAt i b).byteAt i = b := Framer.byteAt_setByte_self fr b h

theorem Framer.byteAt_storeAt_ne (fr : Framer) {i j : Nat} (b : Byte) (h : j ≠ i) :
    (fr.storeAt i b).byteAt j = fr.byteAt j := Framer.byteAt_setByte_ne fr b h

/-- A slice never holds more bytes than asked for, nor more than the buffer has from its start. -/
theorem Framer.slice_length_le (fr : Framer) (i len : Nat) :
    (fr.slice i len).length ≤ len ∧ (fr.slice i len).length ≤ 269 - i := by
  simp only [Framer.slice, List.length_take, List.length_drop, Vector.length_toList]
  omega

end Sys2Proof.Machine
end

