-- ==== Sys2Proof/Laws/Exec.lean ====
section
/-! SUPPORT. What a command and a step can do, said once. -/

namespace Sys2Proof.Machine

/-- Every command answers a next state, which is the state given with new sub-units and one more response. -/
theorem exec_answers (i : Instr) (s : State) :
    ∃ r fr tp ts, exec i s = .next { s with
      framer := fr, transport := tp, timeSync := ts, responses := s.responses ++ [r] } := by
  cases i <;>
    simp only [exec, execNop, execCrc8, execCrc16, execCrc32, execFrReset, execFrRecv, execFrStatus,
      execFrConstructData, execFrConstructLink, execTpRegister, execTpRegisterDefault, execTpSend, execTpEvent,
      execTpRecv, execTsReset, execTsUpdate, execTsTime, execTsRead, complete, raise, completeLlError, respond] <;>
    (repeat' split) <;> exact ⟨_, _, _, _, rfl⟩

/-- A step that answers a next state took nothing, the reset input, a command, or a command the decoder rejects with
ILLEGAL_COMMAND. -/
theorem step_cases {s t : State} (h : step s = .next t) :
    (s.port = [] ∧ t = s) ∨
    (∃ rest, s.port = .globalReset :: rest ∧ t = takeGlobalReset rest s) ∨
    (∃ tx env rest i, s.port = .command tx env :: rest ∧ decode tx = .ok i ∧
      exec i (acceptCommand env rest s) = .next t) ∨
    ∃ tx env rest opc, s.port = .command tx env :: rest ∧
      (decode tx = .error (.unassignedOpcode opc) ∨ decode tx = .error (.reservedField opc)) ∧
      t = respond (failedResponse .illegalCommand (nresOf opc)) (acceptCommand env rest s) := by
  unfold step at h
  split at h
  · cases h; exact .inl ⟨‹_›, rfl⟩
  · cases h; exact .inr (.inl ⟨_, ‹_›, rfl⟩)
  · dsimp only at h
    split at h
    · exact .inr (.inr (.inl ⟨_, _, _, _, ‹_›, ‹_›, h⟩))
    · cases h; exact .inr (.inr (.inr ⟨_, _, _, _, ‹_›, .inl ‹_›, rfl⟩))
    · cases h; exact .inr (.inr (.inr ⟨_, _, _, _, ‹_›, .inr ‹_›, rfl⟩))
    · cases h

end Sys2Proof.Machine
end

