-- ==== Sys2Proof/Laws/Fixed.lean ====
section
/-! SUPPORT. The laws of floor division, saturation and the word conversions. -/

namespace Sys2Proof.Machine

/-- By a positive divisor, `floorDiv` is the floor of R11. -/
theorem floorDiv_of_pos (a : Int) {b : Int} (h : 0 < b) : floorDiv a b = a / b := by
  simp [floorDiv, h]

/-- The floor's defining bounds (R11). -/
theorem floorDiv_bounds (a : Int) {b : Int} (h : 0 < b) :
    b * floorDiv a b ≤ a ∧ a < b * floorDiv a b + b := by
  rw [floorDiv_of_pos a h]
  constructor
  · exact Int.mul_ediv_self_le (by omega)
  · exact Int.lt_mul_ediv_self_add h

/-- A clamp lies between its bounds. -/
theorem clamp_bounds {lo hi : Int} (h : lo ≤ hi) (v : Int) : lo ≤ clamp lo hi v ∧ clamp lo hi v ≤ hi := by
  unfold clamp; omega

/-- A clamp leaves a value between its bounds as it is. -/
theorem clamp_of_mem {lo hi v : Int} (h1 : lo ≤ v) (h2 : v ≤ hi) : clamp lo hi v = v := by
  unfold clamp; omega

theorem sat64_bounds (v : Int) : -2 ^ 63 ≤ sat64 v ∧ sat64 v ≤ 2 ^ 63 - 1 := clamp_bounds (by decide) v

theorem satu64_bounds (v : Int) : 1 ≤ satu64 v ∧ satu64 v ≤ 2 ^ 64 - 1 := clamp_bounds (by decide) v

theorem sat128_bounds (v : Int) : -2 ^ 127 ≤ sat128 v ∧ sat128 v ≤ 2 ^ 127 - 1 := clamp_bounds (by decide) v

/-- `s64` reads back what `wrapu64` wrote of a value in the signed 64-bit range (R83). -/
theorem s64_wrapu64 {v : Int} (h1 : -2 ^ 63 ≤ v) (h2 : v ≤ 2 ^ 63 - 1) : s64 (wrapu64 v) = v := by
  simp only [s64, wrapu64, BitVec.toInt_ofInt]
  exact Int.bmod_eq_of_le (by norm_num; omega) (by norm_num; omega)

/-- `u64` reads back what `wrapu64` wrote of a value in the unsigned 64-bit range. -/
theorem u64_wrapu64 {v : Int} (h1 : 0 ≤ v) (h2 : v ≤ 2 ^ 64 - 1) : u64 (wrapu64 v) = v := by
  simp only [u64, wrapu64, BitVec.toNat_ofInt]
  rw [Int.toNat_of_nonneg (Int.emod_nonneg _ (by decide))]
  exact Int.emod_eq_of_lt h1 (by norm_num; omega)

/-- An FX value kept in range by `sat128` is read back from its 128-bit word. -/
theorem toInt_toFx {v : Int} (h1 : -2 ^ 127 ≤ v) (h2 : v ≤ 2 ^ 127 - 1) : (toFx v).toInt = v := by
  simp only [toFx, BitVec.toInt_ofInt]
  exact Int.bmod_eq_of_le (by norm_num; omega) (by norm_num; omega)

@[simp] theorem toInt_toFx_sat128 (v : Int) : (toFx (sat128 v)).toInt = sat128 v :=
  toInt_toFx (sat128_bounds v).1 (sat128_bounds v).2

theorem u64_nonneg (w : Word64) : 0 ≤ u64 w := by unfold u64; omega

theorem u64_le (w : Word64) : u64 w ≤ 2 ^ 64 - 1 := by
  have := w.isLt
  unfold u64; omega

theorem s64_bounds (w : Word64) : -2 ^ 63 ≤ s64 w ∧ s64 w ≤ 2 ^ 63 - 1 := by
  have h1 := BitVec.le_toInt w
  have h2 := BitVec.toInt_lt (x := w)
  unfold s64
  norm_num at *
  omega

end Sys2Proof.Machine
end

