-- ==== Sys2Proof/Laws/Filter.lean ====
section
/-! SUPPORT. What one time-sync sample can do, said once, by the four ways of spec/43_timesync.md R265 and R269. -/

namespace Sys2Proof.Machine

/-- A sample without a remote time is rejected (R265). -/
theorem updateFilter_of_noTime (p : Params) {stx trx ttx srx : Int} (ts : TimeSync) (h : trx = 0 ∨ ttx = 0) :
    updateFilter p stx trx ttx srx ts = (ts, outNoTime) := by
  rw [updateFilter, if_pos h]

/-- A sample that is not monotonic is rejected (R265). -/
theorem updateFilter_of_backwards (p : Params) {stx trx ttx srx : Int} (ts : TimeSync) (h1 : ¬ (trx = 0 ∨ ttx = 0))
    (h2 : stx > srx ∨ trx > ttx) : updateFilter p stx trx ttx srx ts = (ts, outNonMonotonic) := by
  rw [updateFilter, if_neg h1, if_pos h2]

/-- A sample whose counter does not advance is rejected (R267). -/
theorem updateFilter_of_stale (p : Params) {stx trx ttx srx : Int} (ts : TimeSync) (h1 : ¬ (trx = 0 ∨ ttx = 0))
    (h2 : ¬ (stx > srx ∨ trx > ttx))
    (h3 : ts.nhist ≠ 0 ∧ (roundTrip stx trx ttx srx).c ≤ u64 (ts.entry (ts.head - 1)).counter) :
    updateFilter p stx trx ttx srx ts = (ts, outNotAdvancing) := by
  rw [updateFilter, if_neg h1, if_neg h2]
  exact if_pos h3

/-- Every other sample is pushed and filtered (R266, R269). -/
theorem updateFilter_of_accepted (p : Params) {stx trx ttx srx : Int} (ts : TimeSync) (h1 : ¬ (trx = 0 ∨ ttx = 0))
    (h2 : ¬ (stx > srx ∨ trx > ttx))
    (h3 : ¬ (ts.nhist ≠ 0 ∧ (roundTrip stx trx ttx srx).c ≤ u64 (ts.entry (ts.head - 1)).counter)) :
    updateFilter p stx trx ttx srx ts =
      filterStep p ts.head (roundTrip stx trx ttx srx) (ts.push (roundTrip stx trx ttx srx)) := by
  rw [updateFilter, if_neg h1, if_neg h2]
  exact if_neg h3

/-- The filter step bootstraps exactly while there is no history (R269). -/
theorem filterStep_of_nhist_eq_zero (p : Params) (k : BitVec 4) (x : RoundTrip) {ts : TimeSync} (h : ts.nhist = 0) :
    filterStep p k x ts = (ts.bootstrap p.counterHz x, outBootstrapped) := by
  rw [filterStep, if_pos h]

theorem filterStep_of_nhist_ne_zero (p : Params) (k : BitVec 4) (x : RoundTrip) {ts : TimeSync} (h : ts.nhist ≠ 0) :
    filterStep p k x ts = predictCorrect p k x ts := by
  rw [filterStep, if_neg h]

/-- The predict-and-correct step ends in one of three ways (R272, R275, R277). -/
theorem predictCorrect_cases (p : Params) (k : BitVec 4) (x : RoundTrip) (ts : TimeSync) :
    predictCorrect p k x ts = ({ ts with nhist := 0 }, outResync) ∨
    (∃ tp cov, predictCorrect p k x ts = (ts.commitPrediction p x tp cov, outPredicted)) ∨
    ∃ tp dtau dsig cov, predictCorrect p k x ts = (ts.commit p x tp dtau dsig cov, outFiltered) := by
  unfold predictCorrect
  dsimp only
  split
  · exact .inl rfl
  · split
    · exact .inr (.inl ⟨_, _, rfl⟩)
    · exact .inr (.inr ⟨_, _, _, _, rfl⟩)

/-- The sample of a round trip whose counters do not go back (R266), with its counter and delay as naturals. -/
theorem roundTrip_of_le {stx srx : Nat} (trx ttx : Int) (h : stx ≤ srx) :
    roundTrip stx trx ttx srx =
      { c := ((stx + (srx - stx) / 2 : Nat) : Int), t := trx + (ttx - trx) / 2, dcnt := (((srx - stx) / 2 : Nat) : Int) } := by
  simp only [roundTrip, floorDiv_of_pos _ (show (0 : Int) < 2 by decide)]
  congr 1 <;> omega

/-- A natural written as a 64-bit word. -/
theorem wrapu64_natCast (n : Nat) : wrapu64 (n : Int) = BitVec.ofNat 64 n := by
  apply BitVec.eq_of_toNat_eq; simp [wrapu64]

end Sys2Proof.Machine
end

