-- ==== Sys2Proof/Laws/PerInstr.lean ====
section
/-! SUPPORT. The per-instruction family Framing: a well-formed command is encoded as a framed transaction of an
assigned opcode that sets no reserved field (spec/30_encoding.md R110 to R114). -/

namespace Sys2Proof.Laws.Framing

open Sys2Proof

/-- The encoding of a well-formed command is framed, its opcode is assigned, and no reserved field is set. -/
def Statement (i : Instr) : Prop :=
  i.wf = true → (encode i).framed = true ∧
    ∃ row, opRow? (encode i).opc = some row ∧ row.reservedSet (encode i) = false

theorem extract_opc (opc a : BitVec 8) (len : BitVec 16) :
    (opc ++ a ++ len : BitVec (8 + 8 + 16)).extractLsb' 24 8 = opc := by
  ext i hi
  simp only [BitVec.getElem_extractLsb', BitVec.getLsbD_append]
  simp [show ¬ 24 + i < 16 by omega, show ¬ 24 + i - 16 < 8 by omega, show 24 + i - 16 - 8 = i by omega,
    BitVec.getLsbD_eq_getElem hi]

theorem extract_a (opc a : BitVec 8) (len : BitVec 16) :
    (opc ++ a ++ len : BitVec (8 + 8 + 16)).extractLsb' 16 8 = a := by
  ext i hi
  simp only [BitVec.getElem_extractLsb', BitVec.getLsbD_append]
  simp [show ¬ 16 + i < 16 by omega, BitVec.getLsbD_eq_getElem hi]
  intro h; omega

theorem extract_len (opc a : BitVec 8) (len : BitVec 16) :
    (opc ++ a ++ len : BitVec (8 + 8 + 16)).extractLsb' 0 16 = len := by
  ext i hi
  simp only [BitVec.getElem_extractLsb', BitVec.getLsbD_append]
  simp [BitVec.getLsbD_eq_getElem hi]
  intro h; omega

/-- The opcode of a transaction is the one it was made with. -/
theorem opc_transaction (opc a : BitVec 8) (args : List Word64) (data : List Byte) :
    (transaction opc a args data).opc = opc := extract_opc _ _ _

/-- The selector of a transaction is the one it was made with. -/
theorem a_transaction (opc a : BitVec 8) (args : List Word64) (data : List Byte) :
    (transaction opc a args data).a = a := extract_a _ _ _

/-- `LEN` of a transaction is its payload's length, where that fits. -/
theorem len_transaction (opc a : BitVec 8) (args : List Word64) (data : List Byte) (h : data.length ≤ maxCmdLen) :
    (transaction opc a args data).len = data.length := by
  have : (transaction opc a args data).len = (BitVec.ofNat 16 data.length).toNat :=
    congrArg BitVec.toNat (extract_len opc a _)
  rw [this, BitVec.toNat_ofNat]
  unfold maxCmdLen at h
  omega

/-- A transaction with a row's number of argument words that leaves the row's reserved fields clear. -/
theorem statement_of_row {i : Instr} {opc a : BitVec 8} {args : List Word64} {data : List Byte} (row : OpRow)
    (he : encode i = transaction opc a args data) (hp : i.payload = data) (hr : opRow? opc = some row)
    (hn : args.length = row.narg) (ha : row.usage.reservesA = true → a = 0)
    (hl : row.usage.reservesLen = true → data = []) : Statement i := by
  intro hw
  have hlen : data.length ≤ maxCmdLen := by simpa [Instr.wf, hp] using hw
  have hlen' := len_transaction opc a args data hlen
  rw [he]
  refine ⟨?_, row, by rw [opc_transaction]; exact hr, ?_⟩
  · simp only [Transaction.framed, opc_transaction, nargOf, hr, hlen']
    simp [transaction, hn]
  · simp only [OpRow.reservedSet, a_transaction, hlen']
    cases h1 : row.usage.reservesA <;> cases h2 : row.usage.reservesLen <;> simp_all

theorem nop : Statement .nop := statement_of_row ⟨0x00, .z, 0, 0⟩ rfl rfl (by decide) rfl (by simp) (by simp)

theorem crc8 (c : Word64) (d : List Byte) : Statement (.crc8 c d) :=
  statement_of_row ⟨0x10, .l, 1, 1⟩ rfl rfl (by decide) rfl (by simp) (by simp [UsageClass.reservesLen])

theorem crc16 (c : Word64) (d : List Byte) : Statement (.crc16 c d) :=
  statement_of_row ⟨0x11, .l, 1, 1⟩ rfl rfl (by decide) rfl (by simp) (by simp [UsageClass.reservesLen])

theorem crc32 (c : Word64) (d : List Byte) : Statement (.crc32 c d) :=
  statement_of_row ⟨0x12, .l, 1, 1⟩ rfl rfl (by decide) rfl (by simp) (by simp [UsageClass.reservesLen])

theorem frReset : Statement .frReset :=
  statement_of_row ⟨0x20, .z, 0, 0⟩ rfl rfl (by decide) rfl (by simp) (by simp)

theorem frRecv (d : List Byte) : Statement (.frRecv d) :=
  statement_of_row ⟨0x21, .l, 0, 0⟩ rfl rfl (by decide) rfl (by simp) (by simp [UsageClass.reservesLen])

theorem frStatus : Statement .frStatus :=
  statement_of_row ⟨0x22, .z, 0, 3⟩ rfl rfl (by decide) rfl (by simp) (by simp)

theorem frConstructData (x y : Word64) (d : List Byte) : Statement (.frConstructData x y d) :=
  statement_of_row ⟨0x23, .l, 2, 0⟩ rfl rfl (by decide) rfl (by simp) (by simp [UsageClass.reservesLen])

theorem frConstructLink (a : BitVec 8) (x : Word64) : Statement (.frConstructLink a x) :=
  statement_of_row ⟨0x24, .a, 1, 0⟩ rfl rfl (by decide) rfl (by simp [UsageClass.reservesA]) (by simp)

theorem tpRegister (a : BitVec 8) (x y z : Word64) : Statement (.tpRegister a x y z) :=
  statement_of_row ⟨0x30, .a, 3, 0⟩ rfl rfl (by decide) rfl (by simp [UsageClass.reservesA]) (by simp)

theorem tpRegisterDefault (x y : Word64) : Statement (.tpRegisterDefault x y) :=
  statement_of_row ⟨0x31, .z, 2, 0⟩ rfl rfl (by decide) rfl (by simp) (by simp)

theorem tpSend (a : BitVec 8) (x y : Word64) (d : List Byte) : Statement (.tpSend a x y d) :=
  statement_of_row ⟨0x32, .al, 2, 1⟩ rfl rfl (by decide) rfl (by simp [UsageClass.reservesA])
    (by simp [UsageClass.reservesLen])

theorem tpEvent (a : BitVec 8) : Statement (.tpEvent a) :=
  statement_of_row ⟨0x33, .a, 0, 0⟩ rfl rfl (by decide) rfl (by simp [UsageClass.reservesA]) (by simp)

theorem tpRecv (x : Word64) (d : List Byte) : Statement (.tpRecv x d) :=
  statement_of_row ⟨0x34, .l, 1, 0⟩ rfl rfl (by decide) rfl (by simp) (by simp [UsageClass.reservesLen])

theorem tsReset : Statement .tsReset :=
  statement_of_row ⟨0x40, .z, 0, 0⟩ rfl rfl (by decide) rfl (by simp) (by simp)

theorem tsUpdate (a b c d : Word64) : Statement (.tsUpdate a b c d) :=
  statement_of_row ⟨0x41, .z, 4, 1⟩ rfl rfl (by decide) rfl (by simp) (by simp)

theorem tsTime : Statement .tsTime :=
  statement_of_row ⟨0x42, .z, 0, 1⟩ rfl rfl (by decide) rfl (by simp) (by simp)

theorem tsRead : Statement .tsRead :=
  statement_of_row ⟨0x43, .z, 0, 4⟩ rfl rfl (by decide) rfl (by simp) (by simp)

end Sys2Proof.Laws.Framing
end

