-- ==== Sys2Proof/Laws/Scanner.lean ====
section
/-! SUPPORT. The scanner: what one byte can do to the pending work, and that the loop's bound empties the queue from
every state (spec/41_framer.md R177; log 11). -/

namespace Sys2Proof.Machine

/-- The bytes a framer holds that a resync could replay, at least as many as its parse state stands for. -/
def weight (fr : Framer) : Nat :=
  match fr.state with
  | .sof2 => max (min fr.n 269) 1
  | .frameType => max (min fr.n 269) 2
  | _ => min fr.n 269

/-- The measure of R177: bytes pending and bytes held. -/
def work (fr : Framer) (q : List Byte) : Nat := q.length + weight fr

theorem weight_le (fr : Framer) : weight fr ≤ 269 := by
  unfold weight; split <;> omega

@[simp] theorem frError_n (fr : Framer) : (frError fr).1.n = fr.n := by
  unfold frError; split <;> rfl

@[simp] theorem frError_state (fr : Framer) : (frError fr).1.state = fr.state := by
  unfold frError; split <;> rfl

@[simp] theorem frError_buf (fr : Framer) : (frError fr).1.buf = fr.buf := by
  unfold frError; split <;> rfl

@[simp] theorem frError_target (fr : Framer) : (frError fr).1.target = fr.target := by
  unfold frError; split <;> rfl

@[simp] theorem frError_totalBytes (fr : Framer) : (frError fr).1.totalBytes = fr.totalBytes := by
  unfold frError; split <;> rfl

@[simp] theorem frError_ignoredBytes (fr : Framer) : (frError fr).1.ignoredBytes = fr.ignoredBytes := by
  unfold frError; split <;> rfl

@[simp] theorem frError_isSync (fr : Framer) : (frError fr).1.isSync = false := by
  unfold frError; split
  · rfl
  · simpa using ‹¬fr.isSync = true›

@[simp] theorem frResync_state (fr : Framer) : (frResync fr).framer.state = .sof1 := rfl

@[simp] theorem frResync_n (fr : Framer) : (frResync fr).framer.n = 0 := rfl

@[simp] theorem frResync_replay (fr : Framer) : (frResync fr).replay = fr.slice 1 (fr.n - 1) := rfl

theorem weight_frResync (fr : Framer) : weight (frResync fr).framer = 0 := by
  simp [weight]

theorem replay_frResync_le (fr : Framer) :
    (frResync fr).replay.length ≤ fr.n - 1 ∧ (frResync fr).replay.length ≤ 268 :=
  fr.slice_length_le 1 (fr.n - 1)

/-- What one byte does to the measure: it never grows, a byte is taken from the queue, and where bytes are put back the
measure falls. -/
theorem frStep_measure (crc : List Byte → BitVec 32) (fr : Framer) (b : Byte) (q : List Byte) :
    let r := frStep crc fr b
    (r.replay = [] ∧ work r.framer q ≤ work fr (b :: q)) ∨ work r.framer (r.replay ++ q) < work fr (b :: q) := by
  have resync (fr' : Framer) (h : min fr'.n 269 ≤ weight fr + 1) :
      work (frResync fr').framer ((frResync fr').replay ++ q) < work fr (b :: q) := by
    have := replay_frResync_le fr'
    simp only [work, weight_frResync, List.length_append, List.length_cons]
    omega
  unfold frStep
  split <;> rename_i hs
  · left
    unfold stepSof1
    split
    · simp [quiet, work, weight]
    · refine ⟨rfl, ?_⟩
      simp [work, weight, hs]
  · unfold stepSof2
    split
    · left; simp [quiet, work, weight, hs]; omega
    · split
      · left; simp [quiet, work, weight, hs]
      · right; apply resync; simp [weight, hs]
  · unfold stepFrameType
    dsimp only
    split
    · left; simp [quiet, work, weight, hs]; omega
    · split
      · left; simp [quiet, work, weight, hs]; omega
      · right; apply resync; simp [weight, hs]
  · unfold stepDataHeader
    dsimp only
    split
    · left; simp [quiet, work, weight, hs]; omega
    · split
      · right; apply resync; simp [weight, hs]; omega
      · left; simp [quiet, work, weight, hs]; omega
  · unfold stepStore
    dsimp only
    split
    · left; simp [quiet, work, weight, hs]; omega
    · split
      · right; apply resync; simp [weight, hs]; omega
      · split
        · right; apply resync; simp [weight, hs]; omega
        · left; simp [frDispatch, work, weight, hs]

/-- The loop empties the queue within `μ² + |q|` steps of the measure μ. -/
theorem scan_drains_of_measure (crc : List Byte → BitVec 32) (k : Nat) :
    ∀ (fr : Framer) (q : List Byte), work fr q ^ 2 + q.length ≤ k → (scan crc k fr q).pending = [] := by
  induction k with
  | zero =>
    intro fr q h
    cases q with
    | nil => rfl
    | cons b q => simp at h
  | succ k ih =>
    intro fr q h
    cases q with
    | nil => rfl
    | cons b q =>
      simp only [scan]
      apply ih
      have hq : q.length ≤ work (frStep crc fr b).framer q := by simp [work]
      have hr : ((frStep crc fr b).replay ++ q).length
          ≤ work (frStep crc fr b).framer ((frStep crc fr b).replay ++ q) := by simp [work]
      simp only [List.length_cons] at h
      rcases frStep_measure crc fr b q with ⟨he, hle⟩ | hlt
      · rw [he, List.nil_append]
        have := Nat.pow_le_pow_left hle 2
        omega
      · generalize work (frStep crc fr b).framer ((frStep crc fr b).replay ++ q) = m at *
        generalize work fr (b :: q) = w at *
        nlinarith

/-- From every state, whatever bytes are received, the loop of one `FR_RECV` ends with its queue empty. -/
theorem scan_drains (crc : List Byte → BitVec 32) (fr : Framer) (data : List Byte) :
    (scan crc (scanBound data.length) fr data).pending = [] := by
  apply scan_drains_of_measure
  have hw := weight_le fr
  simp only [work, scanBound, bufSize, headerSize, payloadMax, footerSize]
  nlinarith

end Sys2Proof.Machine
end

