-- ==== Sys2Proof/Tests/Slice0.lean ====
section
/-! SUPPORT. Tests: expected results are those of spec/95_test_vectors.md, spec/30_encoding.md and spec/40_crc.md, never
the model's own; and for every statement with hypotheses a witness that meets them. -/

namespace Sys2Proof.Tests
open Sys2Proof.Machine

-- One theorem at a time: many kernel evaluations at once would each hold a thread's stack.
set_option Elab.async false

/-! ## Helpers -/

/-- The state an outcome continues in. -/
def after (o : Result) : State :=
  match o with
  | .next t => t
  | .fault _ => State.reset
  | .refused _ => State.reset

/-- The next state of an outcome, if it is one. -/
def next? (o : Result) : Option State :=
  match o with
  | .next t => some t
  | .fault _ => none
  | .refused _ => none

/-- The refusal of an outcome, if it is one. -/
def refusal? (o : Result) : Option Refusal :=
  match o with
  | .next _ => none
  | .fault _ => none
  | .refused r => some r

/-- An outcome with a next state is that next state. -/
theorem eq_next_after {o : Result} (h : (next? o).isSome = true) : o = .next (after o) := by
  cases o <;> simp_all [next?, after]

/-- The response of one command at a state; none if the model stops. -/
def answer (i : Instr) (s : State) : Option Response := (next? (exec i s)).bind fun t => t.responses.getLast?

/-- The state after one command. -/
def run (i : Instr) (s : State) : State := after (exec i s)

/-- A response of status OK. -/
def ok (res : List Word64) (out : List Byte) (events : List Event) : Option Response :=
  some { status := .ok, res := res, out := out, events := events }

/-- A response of status PARAM_INVALID. -/
def invalid (nres : Nat) : Option Response :=
  some { status := .paramInvalid, res := List.replicate nres 0, out := [], events := [] }

/-- The reset state with one transaction presented. -/
def presenting (tx : Transaction) : State := present (.command tx { counter := 0, llStatus := 0 }) State.reset

/-- The response of the step that takes a transaction at reset. -/
def stepAnswer (tx : Transaction) : Option Response :=
  (next? (step (presenting tx))).bind fun t => t.responses.getLast?

/-- A transaction of an opcode with given `A` and `LEN` and zero operands. -/
def zeroTx (opc a : BitVec 8) (len : Nat) : Transaction :=
  { cw := cmdWord opc a len, args := List.replicate (nargOf opc) 0, data := List.replicate len 0 }

/-- The ASCII bytes of "123456789". -/
def digits : List Byte := [0x31, 0x32, 0x33, 0x34, 0x35, 0x36, 0x37, 0x38, 0x39]

/-- The bytes of vector FR-1. -/
def fr1 : List Byte := [0x55, 0, 0, 0, 0, 0, 0, 0, 0, 0x7E, 0xDF, 0x6C, 0x9D, 0x55]

/-- The bytes of vector FR-3. -/
def fr3 : List Byte := [0x55, 0, 0x78, 0, 0x01, 0xE1, 0x3F, 0xA6, 0x55]

/-- The framer after FR_RECV of some bytes at reset. -/
def framerAfter (data : List Byte) : Framer := (run (.frRecv data) State.reset).framer

/-- B = 2^40 and G = 2^30 of the vectors. -/
def tB : Word64 := 0x10000000000
/-- One second in Q34.30. -/
def tG : Word64 := 0x40000000
/-- One hour in Q34.30 (S-3). -/
def tH : Word64 := 3865470566400

/-- The reset state with a live counter. -/
def atCounter (c : Word64) (s : State) : State := { s with env := { counter := c, llStatus := 0 } }

/-- After the bootstrap of TS-2: counter 1000, time B. -/
def booted : State := run (.tsUpdate 1000 tB tB 1000) State.reset

/-- `booted` with every covariance entry at its largest value. -/
def saturated : State :=
  let m : Fx := BitVec.ofNat 128 (2 ^ 127 - 1)
  { booted with timeSync := { booted.timeSync with pTT := m, pTS := m, pSS := m } }

/-- Port 5 with both handlers, as after TP-1. -/
def port5 : State := run (.tpRegister 5 3 0x77 0) State.reset

/-! ## Well-formedness and the decoder's refusals -/

/-- The check refuses a payload that the 16-bit LEN field cannot count (R111, R7). -/
theorem test_wf_refuses_65536_bytes : (Instr.frRecv (List.replicate 65536 0)).wf = false := by
  rw [Instr.wf, Instr.payload, List.length_replicate]; decide

/-- The check takes the longest payload (R111, R7). -/
theorem test_wf_takes_65535_bytes : (Instr.tpSend 0 0 0 (List.replicate 65535 0)).wf = true := by
  rw [Instr.wf, Instr.payload, List.length_replicate]; decide

/-- EN-2, EN-3, EN-4, EN-5, CRC-31: reserved fields and unassigned opcodes, rejected by name. -/
theorem test_decode_rejects :
    decode ⟨0x00010000, [], []⟩ = .error (.reservedField 0x00) ∧
    decode ⟨0x00000001, [], [0]⟩ = .error (.reservedField 0x00) ∧
    decode ⟨0x05000002, [], [1, 2]⟩ = .error (.unassignedOpcode 0x05) ∧
    decode ⟨0xFF000000, [], []⟩ = .error (.unassignedOpcode 0xFF) ∧
    decode ⟨0x10010000, [0], []⟩ = .error (.reservedField 0x10) ∧
    decode ⟨0x10000000, [], []⟩ = .error .misframed ∧
    decode ⟨0x21000002, [], [1]⟩ = .error .misframed := by decide

/-- EN-1 to EN-5 through the step. -/
theorem test_step_statuses :
    stepAnswer ⟨0x00000000, [], []⟩ = ok [] [] [] ∧
    stepAnswer ⟨0x00010000, [], []⟩ = some (failedResponse .illegalCommand 0) ∧
    stepAnswer ⟨0x10010000, [0], []⟩ = some (failedResponse .illegalCommand 1) ∧
    stepAnswer ⟨0x05000002, [], [1, 2]⟩ = some (failedResponse .illegalCommand 0) ∧
    refusal? (step (presenting ⟨0x10000000, [], []⟩)) = some .misframedTransaction := by decide +kernel

/-! ## Command words written out from R111 and R112 -/

theorem test_decode_nop : decode ⟨0x00000000, [], []⟩ = .ok .nop := by decide
theorem test_decode_crc8 : decode ⟨0x10000002, [0xBA], [0x35, 0x36]⟩ = .ok (.crc8 0xBA [0x35, 0x36]) := by decide
theorem test_decode_crc16 : decode ⟨0x11000001, [0xFFFF], [0]⟩ = .ok (.crc16 0xFFFF [0]) := by decide
theorem test_decode_crc32 : decode ⟨0x12000002, [0], [0x55, 0]⟩ = .ok (.crc32 0 [0x55, 0]) := by decide
theorem test_decode_frReset : decode ⟨0x20000000, [], []⟩ = .ok .frReset := by decide
theorem test_decode_frRecv : decode ⟨0x21000001, [], [0xAA]⟩ = .ok (.frRecv [0xAA]) := by decide
theorem test_decode_frStatus : decode ⟨0x22000000, [], []⟩ = .ok .frStatus := by decide
theorem test_decode_frConstructData :
    decode ⟨0x23000002, [1, 0x1082], [0x68, 0x69]⟩ = .ok (.frConstructData 1 0x1082 [0x68, 0x69]) := by decide
theorem test_decode_frConstructLink :
    decode ⟨0x24170000, [0x123], []⟩ = .ok (.frConstructLink 0x17 0x123) := by decide
theorem test_decode_tpRegister :
    decode ⟨0x30030000, [3, 0x33, 7], []⟩ = .ok (.tpRegister 3 3 0x33 7) := by decide
theorem test_decode_tpRegisterDefault :
    decode ⟨0x31000000, [3, 0xDD], []⟩ = .ok (.tpRegisterDefault 3 0xDD) := by decide
theorem test_decode_tpSend :
    decode ⟨0x32030002, [3, 0x5A], [1, 2]⟩ = .ok (.tpSend 3 3 0x5A [1, 2]) := by decide
theorem test_decode_tpEvent : decode ⟨0x33030000, [], []⟩ = .ok (.tpEvent 3) := by decide
theorem test_decode_tpRecv : decode ⟨0x34000002, [0x5AC3], [1, 2]⟩ = .ok (.tpRecv 0x5AC3 [1, 2]) := by decide
theorem test_decode_tsReset : decode ⟨0x40000000, [], []⟩ = .ok .tsReset := by decide
theorem test_decode_tsUpdate :
    decode ⟨0x41000000, [1000, 2, 3, 4], []⟩ = .ok (.tsUpdate 1000 2 3 4) := by decide
theorem test_decode_tsTime : decode ⟨0x42000000, [], []⟩ = .ok .tsTime := by decide
theorem test_decode_tsRead : decode ⟨0x43000000, [], []⟩ = .ok .tsRead := by decide

/-- The same word as one number, argument bits 95 to 32 and a payload byte above them; and the step runs it. -/
theorem test_decodeTableWord :
    decodeTableWord 32 0x22000000 = some .frStatus ∧
    decodeTableWord 104 (0x10000001 + 2 ^ 32 * 0x5A + 2 ^ 96 * 0x31) = some (.crc8 0x5A [0x31]) ∧
    decodeTableWord 32 0x00010000 = none ∧
    (next? (step (State.reset.withFetchWord 32 0x22000000))).map State.responses =
      some [okResponse [0, 0, 0] [] []] := by decide +kernel

/-! ## Commands, on the spec's vectors -/

/-- EN-1. -/
theorem test_nop : answer .nop State.reset = ok [] [] [] := by decide +kernel

/-- CRC-1, CRC-7. -/
theorem test_crc8 :
    answer (.crc8 0 digits) State.reset = ok [0x6D] [] [] ∧
    answer (.crc8 0x12 [0x55]) State.reset = ok [0x13] [] [] := by decide +kernel

/-- CRC-27. -/
theorem test_crc8_invalid : answer (.crc8 0x100 []) State.reset = invalid 1 := by decide +kernel

/-- CRC-10, CRC-11. -/
theorem test_crc16 :
    answer (.crc16 0xFFFF digits) State.reset = ok [0x29B1] [] [] ∧
    answer (.crc16 0 digits) State.reset = ok [0x31C3] [] [] := by decide +kernel

/-- CRC-28. -/
theorem test_crc16_invalid : answer (.crc16 0x10000 []) State.reset = invalid 1 := by decide +kernel

/-- CRC-17, CRC-23. -/
theorem test_crc32 :
    answer (.crc32 0 digits) State.reset = ok [0xCBF43926] [] [] ∧
    answer (.crc32 0xDEADBEEF [1, 2, 3]) State.reset = ok [0x25234B3D] [] [] := by decide +kernel

/-- CRC-29, CRC-30. -/
theorem test_crc32_invalid :
    answer (.crc32 0x100000000 []) State.reset = invalid 1 ∧
    answer (.crc32 0xFFFFFFFFFFFFFFFF []) State.reset = invalid 1 := by decide +kernel

/-- The table of R142. -/
theorem test_lenCrc_table : (List.range 256).map (fun x => lenCrc (BitVec.ofNat 8 x)) =
    [0x00, 0xD7, 0x79, 0xAE, 0xF2, 0x25, 0x8B, 0x5C, 0x33, 0xE4, 0x4A, 0x9D, 0xC1, 0x16, 0xB8, 0x6F] ++
    [0x66, 0xB1, 0x1F, 0xC8, 0x94, 0x43, 0xED, 0x3A, 0x55, 0x82, 0x2C, 0xFB, 0xA7, 0x70, 0xDE, 0x09] ++
    [0xCC, 0x1B, 0xB5, 0x62, 0x3E, 0xE9, 0x47, 0x90, 0xFF, 0x28, 0x86, 0x51, 0x0D, 0xDA, 0x74, 0xA3] ++
    [0xAA, 0x7D, 0xD3, 0x04, 0x58, 0x8F, 0x21, 0xF6, 0x99, 0x4E, 0xE0, 0x37, 0x6B, 0xBC, 0x12, 0xC5] ++
    [0x4F, 0x98, 0x36, 0xE1, 0xBD, 0x6A, 0xC4, 0x13, 0x7C, 0xAB, 0x05, 0xD2, 0x8E, 0x59, 0xF7, 0x20] ++
    [0x29, 0xFE, 0x50, 0x87, 0xDB, 0x0C, 0xA2, 0x75, 0x1A, 0xCD, 0x63, 0xB4, 0xE8, 0x3F, 0x91, 0x46] ++
    [0x83, 0x54, 0xFA, 0x2D, 0x71, 0xA6, 0x08, 0xDF, 0xB0, 0x67, 0xC9, 0x1E, 0x42, 0x95, 0x3B, 0xEC] ++
    [0xE5, 0x32, 0x9C, 0x4B, 0x17, 0xC0, 0x6E, 0xB9, 0xD6, 0x01, 0xAF, 0x78, 0x24, 0xF3, 0x5D, 0x8A] ++
    [0x9E, 0x49, 0xE7, 0x30, 0x6C, 0xBB, 0x15, 0xC2, 0xAD, 0x7A, 0xD4, 0x03, 0x5F, 0x88, 0x26, 0xF1] ++
    [0xF8, 0x2F, 0x81, 0x56, 0x0A, 0xDD, 0x73, 0xA4, 0xCB, 0x1C, 0xB2, 0x65, 0x39, 0xEE, 0x40, 0x97] ++
    [0x52, 0x85, 0x2B, 0xFC, 0xA0, 0x77, 0xD9, 0x0E, 0x61, 0xB6, 0x18, 0xCF, 0x93, 0x44, 0xEA, 0x3D] ++
    [0x34, 0xE3, 0x4D, 0x9A, 0xC6, 0x11, 0xBF, 0x68, 0x07, 0xD0, 0x7E, 0xA9, 0xF5, 0x22, 0x8C, 0x5B] ++
    [0xD1, 0x06, 0xA8, 0x7F, 0x23, 0xF4, 0x5A, 0x8D, 0xE2, 0x35, 0x9B, 0x4C, 0x10, 0xC7, 0x69, 0xBE] ++
    [0xB7, 0x60, 0xCE, 0x19, 0x45, 0x92, 0x3C, 0xEB, 0x84, 0x53, 0xFD, 0x2A, 0x76, 0xA1, 0x0F, 0xD8] ++
    [0x1D, 0xCA, 0x64, 0xB3, 0xEF, 0x38, 0x96, 0x41, 0x2E, 0xF9, 0x57, 0x80, 0xDC, 0x0B, 0xA5, 0x72] ++
    [0x7B, 0xAC, 0x02, 0xD5, 0x89, 0x5E, 0xF0, 0x27, 0x48, 0x9F, 0x31, 0xE6, 0xBA, 0x6D, 0xC3, 0x14] := by
  decide +kernel

/-- S-2, R108: each link type is at distance 4 from DATA, and two link types are at distance 2. -/
theorem test_frame_type_distances :
    (∀ t ∈ linkTypes, hammingDistance typeData t = 4) ∧
    ∀ t ∈ linkTypes, ∀ u ∈ linkTypes, t ≠ u → hammingDistance t u = 2 := by decide +kernel

/-- The example of R160. -/
theorem test_frReset :
    answer .frStatus (run .frReset (run (.frRecv [0xAA]) State.reset)) = ok [0, 0, 0] [] [] := by decide +kernel

/-- FR-9: two frames back to back. -/
theorem test_frRecv :
    answer (.frRecv (fr1 ++ fr3)) State.reset = ok [] [] [.frData 0 0 [0], .frLink 0x0F 0] := by decide +kernel

/-- FR-10: a truncated frame, resynchronised on the frame after it. -/
theorem test_frRecv_resync :
    answer (.frRecv ([0x55, 0, 0x07, 0xFF, 0x02, 0x79, 0xEF, 0xBE, 0x01] ++ fr3)) State.reset =
      ok [] [] [.frError, .frLink 0x0F 0] := by decide +kernel

/-- The example of R162, and FR-9's statistics. -/
theorem test_frStatus :
    answer .frStatus (run (.frRecv [0xAA]) State.reset) = ok [1, 1, 1] [] [] ∧
    answer .frStatus (run (.frRecv (fr1 ++ fr3)) State.reset) = ok [23, 1, 0] [] [] := by decide +kernel

/-- FR-1, FR-2. -/
theorem test_frConstructData :
    answer (.frConstructData 0 0 [0]) State.reset = ok [] fr1 [] ∧
    answer (.frConstructData 2047 0xBEEF [1, 0x55, 0]) State.reset =
      ok [] [0x55, 0, 0x07, 0xFF, 0x02, 0x79, 0xEF, 0xBE, 0x01, 0x55, 0, 0x20, 0x98, 0xB6, 0x8E, 0x55] [] := by
  decide +kernel

/-- FR-E1, FR-E2, FR-E3, FR-E4. -/
theorem test_frConstructData_invalid :
    answer (.frConstructData 0 0 []) State.reset = invalid 0 ∧
    answer (.frConstructData 0 0 (List.replicate 257 0)) State.reset = invalid 0 ∧
    answer (.frConstructData 2048 0 [0]) State.reset = invalid 0 ∧
    answer (.frConstructData 0 0x10000 [0]) State.reset = invalid 0 := by decide +kernel

/-- FR-3, FR-4. -/
theorem test_frConstructLink :
    answer (.frConstructLink 0x0F 0) State.reset = ok [] fr3 [] ∧
    answer (.frConstructLink 0x1E 0x7FF) State.reset =
      ok [] [0x55, 0, 0xF7, 0xFF, 0x08, 0x8A, 0x26, 0x37, 0x55] [] := by decide +kernel

/-- FR-E6, FR-E7, FR-E8. -/
theorem test_frConstructLink_invalid :
    answer (.frConstructLink 0 0) State.reset = invalid 0 ∧
    answer (.frConstructLink 0x10 0) State.reset = invalid 0 ∧
    answer (.frConstructLink 0x0F 2048) State.reset = invalid 0 := by decide +kernel

/-- TP-1. -/
theorem test_tpRegister :
    answer (.tpRegister 5 3 0x77 0) State.reset = ok [] [] [.portEvent (.port 5) 0x77 1] ∧
    port5.transport.slot 5 = { evEn := true, rxEn := true, userData := 0x77, portMeta := 0 } := by decide +kernel

/-- TP-13, TP-13a. -/
theorem test_tpRegister_invalid :
    answer (.tpRegister 32 3 0 0) State.reset = invalid 0 ∧
    answer (.tpRegister 1 4 0 0) State.reset = invalid 0 := by decide +kernel

/-- P2 row 2, and TP-2's registration without an event handler. -/
theorem test_tpRegisterDefault :
    answer (.tpRegisterDefault 3 0xDD) State.reset = ok [] [] [.portEvent .dflt 0xDD 1] ∧
    answer (.tpRegisterDefault 2 9) State.reset = ok [] [] [] := by decide +kernel

/-- TP-6, TP-6a. -/
theorem test_tpSend :
    answer (.tpSend 3 3 0x5A [1, 2]) State.reset = ok [0] [] [.llSend 0x5AC3 [1, 2]] ∧
    answer (.tpSend 31 0 0xFF []) State.reset = ok [0] [] [.llSend 0xFF1F []] := by decide +kernel

/-- TP-7. -/
theorem test_tpSend_llError :
    answer (.tpSend 3 1 0 [0xAA]) { State.reset with env := { counter := 0, llStatus := 0xFFFFFFFF } } =
      some { status := .llError, res := [0xFFFFFFFF], out := [], events := [.llSend 0x0043 [0xAA]] } := by
  decide +kernel

/-- TP-3, TP-4. -/
theorem test_tpEvent :
    answer (.tpEvent 2) port5 = ok [] [] [.portEvent (.port 5) 0x77 2] ∧
    (run (.tpEvent 2) port5).transport.lastEvent = 2 ∧
    answer (.tpEvent 0x80) port5 = ok [] [] [.portEvent (.port 5) 0x77 0x80] ∧
    (run (.tpEvent 0x80) port5).transport.lastEvent = 1 := by decide +kernel

/-- TP-9, TP-9a. -/
theorem test_tpRecv :
    answer (.tpRecv 0x5AC5 [1]) port5 = ok [] [] [.portRecv (.port 5) 0x77 5 3 0x5A [1]] ∧
    answer (.tpRecv 0x5AE5 [1]) port5 = ok [] [] [.portRecv (.port 5) 0x77 5 3 0x5A [1]] := by decide +kernel

/-- TP-10, TP-11: the default, then nobody. -/
theorem test_tpRecv_default :
    answer (.tpRecv 0x0087 [2]) (run (.tpRegisterDefault 2 9) port5) =
      ok [] [] [.portRecv .dflt 9 7 2 0 [2]] ∧
    answer (.tpRecv 0x0087 [2]) port5 = ok [] [] [] := by decide +kernel

/-- TS-6. -/
theorem test_tsReset : answer .tsRead (run .tsReset booted) = ok [0, 0, 4611686018427388, 0] [] [] := by
  decide +kernel

/-- TS-1, TS-2: bootstrap, a filtered sample, a force-resync. -/
theorem test_tsUpdate :
    answer (.tsUpdate 60000 tH tH 60000) State.reset = ok [4] [] [] ∧
    answer (.tsUpdate 2000 (tB + tG) (tB + tG) 2000) booted = ok [0] [] [] ∧
    answer (.tsUpdate 3000 (tB + 100 * tG) (tB + 100 * tG) 3000) booted = ok [5] [] [] := by decide +kernel

/-- TS-5: no remote time, and samples that go back. -/
theorem test_tsUpdate_rejections :
    answer (.tsUpdate 5 0 7 9) State.reset = ok [1] [] [] ∧
    answer (.tsUpdate 9 3 4 5) State.reset = ok [2] [] [] ∧
    answer (.tsUpdate 5 4 3 9) State.reset = ok [2] [] [] := by decide +kernel

/-- TS-1's floor below the committed counter, and TS-6 before any sample. -/
theorem test_tsTime :
    answer .tsTime (atCounter 59000 (run (.tsUpdate 60000 tH tH 60000) State.reset)) = ok [tH - tG - 1] [] [] ∧
    answer .tsTime (atCounter 1500 State.reset) = ok [1610612736] [] [] := by decide +kernel

/-- TS-2's first two rows. -/
theorem test_tsRead :
    answer .tsRead booted = ok [tB, 1000, 4611686018427388, 0x11] [] [] ∧
    answer .tsRead (run (.tsUpdate 2000 (tB + tG) (tB + tG) 2000) booted) =
      ok [tB + tG, 2000, 4611686018427388, 0x21] [] [] := by decide +kernel

/-- The assembler: symbols, decimal and hexadecimal numbers, ASCII bytes, a comment; and a line it refuses. -/
theorem test_assemble :
    assemble "FR_CONSTRUCT_LINK type=ACK_ONE, id=0x123 ; P1" = some ⟨0x24170000, [0x123], []⟩ ∧
    assemble "TP_SEND port=2, seq=START, pd=0x10, data=\"hi\"" = some ⟨0x32020002, [2, 0x10], [0x68, 0x69]⟩ ∧
    assemble "TP_EVENT port=2" = none := by decide +kernel

/-- The model's choice of log 15: a byte of `data=[..]` may have any number of hexadecimal digits, but stays below 256. -/
theorem test_assemble_byte_digits :
    assemble "FR_RECV data=[1 01 001]" = some ⟨0x21000003, [], [0x01, 0x01, 0x01]⟩ ∧
    assemble "FR_RECV data=[100]" = none := by decide +kernel

/-! ## Witnesses: the hypotheses of each statement can be met, at the boundary values of its clauses -/

theorem witness_DecodeOfEncodeIsTheCommand :
    Instr.nop.wf = true ∧ (Instr.frRecv (List.replicate 65535 0)).wf = true :=
  ⟨by decide, by rw [Instr.wf, Instr.payload, List.length_replicate]; decide⟩

theorem witness_TransactionNumberRoundTrip :
    (⟨0x05000002, [], [1, 2]⟩ : Transaction).framed = true ∧ (Instr.crc8 0xFF [1]).wf = true ∧
    (encode (.crc8 0xFF [1])).toBits < 2 ^ 104 := by decide

theorem witness_StepRunsTheDecodedCommand :
    (presenting ⟨0x00000000, [], []⟩).port = [.command ⟨0x00000000, [], []⟩ ⟨0, 0⟩] ∧
    decode ⟨0x00000000, [], []⟩ = .ok .nop := by decide +kernel

theorem witness_ResetInputAndIdleStep :
    State.reset.port = [] ∧ (present .globalReset booted).port = [.globalReset] := by decide +kernel

theorem witness_CommandTakenOnceAnsweredOnce :
    (presenting ⟨0x00010000, [], []⟩).port = [.command ⟨0x00010000, [], []⟩ ⟨0, 0⟩] ∧
    step (presenting ⟨0x00010000, [], []⟩) = .next (after (step (presenting ⟨0x00010000, [], []⟩))) :=
  ⟨rfl, eq_next_after (by decide +kernel)⟩

theorem witness_EveryFramedCommandCompletes :
    (presenting (zeroTx 0x41 0 0)).port = [.command (zeroTx 0x41 0 0) ⟨0, 0⟩] ∧
    (zeroTx 0x41 0 0).framed = true ∧ (zeroTx 0xFF 0xFF 3).framed = true := by decide +kernel

/-- One command that fails with each of the two statuses. -/
theorem witness_FailedCommandWritesNoState :
    ∀ x ∈ [((⟨0x10000000, [0x100], []⟩ : Transaction), failedResponse .paramInvalid 1),
        (⟨0x00010000, [], []⟩, failedResponse .illegalCommand 0)],
      (presenting x.1).port = [.command x.1 ⟨0, 0⟩] ∧
      step (presenting x.1) = .next (after (step (presenting x.1))) ∧
      (after (step (presenting x.1))).responses = (presenting x.1).responses ++ [x.2] ∧
      (x.2.status = .paramInvalid ∨ x.2.status = .illegalCommand) := by
  intro x h
  simp only [List.mem_cons, List.not_mem_nil, or_false] at h
  rcases h with rfl | rfl
  · exact ⟨rfl, eq_next_after (by decide +kernel), by decide +kernel, .inl rfl⟩
  · exact ⟨rfl, eq_next_after (by decide +kernel), by decide +kernel, .inr rfl⟩

/-- Both ends of each range of R115. -/
theorem witness_UnassignedOpcodeIsIllegal :
    ∀ o ∈ ([0x01, 0x0F, 0x13, 0x1F, 0x25] ++ [0x2F, 0x35, 0x3F, 0x44, 0xFF] : List (BitVec 8)),
      let tx := zeroTx o 1 2
      (presenting tx).port = [.command tx ⟨0, 0⟩] ∧
      ((0x01 ≤ tx.opc.toNat ∧ tx.opc.toNat ≤ 0x0F) ∨ (0x13 ≤ tx.opc.toNat ∧ tx.opc.toNat ≤ 0x1F) ∨
        (0x25 ≤ tx.opc.toNat ∧ tx.opc.toNat ≤ 0x2F) ∨ (0x35 ≤ tx.opc.toNat ∧ tx.opc.toNat ≤ 0x3F) ∨
        0x44 ≤ tx.opc.toNat) ∧ tx.args = [] ∧ tx.data.length = tx.len := by decide +kernel

/-- Every opcode that reserves `A`, with `A` = 1. These transactions also meet `AnswersIllegal` of each opcode. -/
theorem witness_ReservedFieldIsIllegal_a :
    ∀ o ∈ ([0x00, 0x20, 0x22, 0x31, 0x40, 0x41, 0x42, 0x43] ++ [0x10, 0x11, 0x12, 0x21, 0x23, 0x34] : List (BitVec 8)),
      let tx := zeroTx o 1 0
      (presenting tx).port = [.command tx ⟨0, 0⟩] ∧ tx.opc = o ∧ tx.framed = true ∧ tx.a ≠ 0 := by decide +kernel

/-- Every opcode that reserves `LEN`, with `LEN` = 1. These transactions also meet `AnswersIllegal` of each opcode. -/
theorem witness_ReservedFieldIsIllegal_len :
    ∀ o ∈ ([0x00, 0x20, 0x22, 0x31, 0x40, 0x41, 0x42, 0x43] ++ [0x24, 0x30, 0x33] : List (BitVec 8)),
      let tx := zeroTx o 0 1
      (presenting tx).port = [.command tx ⟨0, 0⟩] ∧ tx.opc = o ∧ tx.framed = true ∧ tx.len ≠ 0 := by decide +kernel

/-- A command at a state, its next state and its response. -/
def Answers (i : Instr) (s : State) (r : Response) : Prop :=
  exec i s = .next (run i s) ∧ (run i s).responses = s.responses ++ [r]

theorem answers_of {i : Instr} {s : State} {r : Response}
    (h : (next? (exec i s)).isSome = true ∧ (run i s).responses = s.responses ++ [r]) : Answers i s r :=
  ⟨eq_next_after h.1, h.2⟩

/-- An operand at the end of its range and one beyond it. -/
theorem witness_ParamInvalidIffOperandIllegal :
    Answers (.tpRecv 0xFFFF []) State.reset (okResponse [] [] []) ∧
    Answers (.tpRecv 0x10000 []) State.reset (failedResponse .paramInvalid 0) :=
  ⟨answers_of (by decide +kernel), answers_of (by decide +kernel)⟩

/-- A response with results, one with output, one with LL_ERROR. -/
theorem witness_ResponseShapeByCommand :
    Answers .frStatus State.reset (okResponse [0, 0, 0] [] []) ∧
    Answers (.frConstructLink 0x0F 0) State.reset (okResponse [] fr3 []) ∧
    Answers (.tpSend 0 0 0 []) { State.reset with env := ⟨0, 1⟩ } ⟨.llError, [1], [], [.llSend 0 []]⟩ :=
  ⟨answers_of (by decide +kernel), answers_of (by decide +kernel), answers_of (by decide +kernel)⟩

theorem witness_ReadOnlyCommandsWriteNothing :
    (∃ c d, Instr.crc8 0 [] = .crc8 c d) ∧ ∃ a x y d, Instr.tpSend 0 0 0 [] = .tpSend a x y d :=
  ⟨⟨_, _, rfl⟩, ⟨_, _, _, _, rfl⟩⟩

/-- `AnswersIllegal` of NOP; the other opcodes' are met by `witness_ReservedFieldIsIllegal_a` and `_len`. -/
theorem witness_NopDoesNothing :
    (zeroTx 0x00 1 0).opc = 0x00 ∧ (zeroTx 0x00 1 0).framed = true ∧ (zeroTx 0x00 1 0).a ≠ 0 := by decide

theorem witness_Crc8Result : (0xFF : Word64).toNat ≤ 0xFF ∧ 0xFF < (0x100 : Word64).toNat := by decide
theorem witness_Crc16Result : (0xFFFF : Word64).toNat ≤ 0xFFFF ∧ 0xFFFF < (0x10000 : Word64).toNat := by decide
theorem witness_Crc32Result :
    (0xFFFFFFFF : Word64).toNat ≤ 0xFFFFFFFF ∧ 0xFFFFFFFF < (0x100000000 : Word64).toNat := by decide

theorem witness_CrcCommandsChain :
    exec (.crc8 0 [0xFF]) State.reset = .next (answered State.reset (okResponse [0x14] [] [])) ∧
    exec (.crc16 0xFFFF [0]) State.reset = .next (answered State.reset (okResponse [0xE1F0] [] [])) ∧
    exec (.crc32 0 [0]) State.reset = .next (answered State.reset (okResponse [0xD202EF8D] [] [])) ∧
    OperandsLegal (.crc8 0xFF []) :=
  ⟨rfl, rfl, rfl, by unfold OperandsLegal; decide⟩

theorem witness_LengthCodeDistanceIsFive : (0 : Byte) ≠ 1 := by decide

/-- A framer that meets R42 and holds fewer bytes of a data frame in STORE than a run can: R42 alone allows it. -/
def storeAtThree : Framer :=
  { Framer.reset with state := .store, buf := Framer.reset.buf.set 0 0x55, n := 3, target := 14 }

/-- The step bound's premise, after reset, in the middle of a header, and where only R42 and not the invariant holds. -/
theorem witness_FrRecvRunsTheReplayLoop :
    State.reset.framer.R42 ∧ (framerAfter [0x55, 0, 0]).R42 ∧ storeAtThree.R42 ∧ ¬ storeAtThree.Inv :=
  ⟨by decide +kernel, by decide +kernel, by decide +kernel, by decide +kernel⟩

/-- Both ends of each operand's range, and the values beyond them. -/
theorem witness_ConstructDataFrameBytes :
    ((2047 : Word64).toNat ≤ 2047 ∧ (0xFFFF : Word64).toNat ≤ 0xFFFF ∧ 1 ≤ [(0 : Byte)].length ∧
      (List.replicate 256 (0 : Byte)).length ≤ 256) ∧
    2047 < (2048 : Word64).toNat ∧ 0xFFFF < (0x10000 : Word64).toNat ∧ ([] : List Byte).length < 1 ∧
      256 < (List.replicate 257 (0 : Byte)).length := by decide +kernel

theorem witness_ConstructLinkFrameBytes :
    IsLinkType 0x0F ∧ IsLinkType 0x1E ∧ ¬ IsLinkType 0x00 ∧ (2047 : Word64).toNat ≤ 2047 := by
  unfold IsLinkType; decide

theorem witness_ScannerSearchStates :
    Framer.reset.state = .sof1 ∧ (framerAfter [0x55]).state = .sof2 ∧
    (0x01 : Byte) ≠ 0x00 ∧ (0x01 : Byte) ≠ 0x55 := by decide +kernel

/-- FRAME_TYPE; DATA_HEADER with three bytes and with five; a length byte with its CRC and one with another. -/
theorem witness_ScannerHeaderStates :
    (framerAfter [0x55, 0]).state = .frameType ∧
    ((0x07 : Byte).toNat / 8 = 0 ∧ (0x78 : Byte).toNat / 8 = 0x0F ∧ (0x55 : Byte).toNat / 8 = 0x0A) ∧
    ((framerAfter [0x55, 0, 0]).state = .dataHeader ∧ (framerAfter [0x55, 0, 0]).n = 3) ∧
    ((framerAfter [0x55, 0, 0, 0, 1]).state = .dataHeader ∧ (framerAfter [0x55, 0, 0, 0, 1]).n = 5) ∧
    (0xD7 : Byte) = crc8Update 0x00 [(framerAfter [0x55, 0, 0, 0, 1]).byteAt 4] ∧
    (0x00 : Byte) ≠ crc8Update 0x00 [(framerAfter [0x55, 0, 0, 0, 1]).byteAt 4] := by decide +kernel

/-- STORE in the middle of a frame; and with the EOF next, where the EOF (`0x55`) or another byte may come. -/
theorem witness_ScannerStoreState :
    ((framerAfter (fr3.take 5)).R42 ∧ (framerAfter (fr3.take 5)).state = .store ∧
      (framerAfter (fr3.take 5)).n + 1 < (framerAfter (fr3.take 5)).target) ∧
    (framerAfter (fr3.take 8)).R42 ∧ (framerAfter (fr3.take 8)).state = .store ∧
      (framerAfter (fr3.take 8)).n + 1 = (framerAfter (fr3.take 8)).target ∧
      (crc32Update 0 [(framerAfter (fr3.take 8)).byteAt 2, (framerAfter (fr3.take 8)).byteAt 3]).toNat =
        0x01 + 2 ^ 8 * 0xE1 + 2 ^ 16 * 0x3F + 2 ^ 24 * 0xA6 :=
  ⟨⟨by decide +kernel, by decide +kernel⟩, by decide +kernel, by decide +kernel⟩

theorem witness_ResyncReplaysHeldBytes :
    (1 ≤ (framerAfter [0x55]).n ∧ (framerAfter [0x55]).n ≤ 269) ∧ (1 ≤ 269 ∧ 269 ≤ 269) := by decide +kernel

theorem witness_FramerInvariantKept :
    (presenting (encode (.frRecv fr3))).framer.Inv ∧
    step (presenting (encode (.frRecv fr3))) = .next (after (step (presenting (encode (.frRecv fr3))))) :=
  ⟨by decide +kernel, eq_next_after (by decide +kernel)⟩

theorem witness_OneErrorPerDesyncEpisode :
    Answers (.frRecv [0xAA, 0xAB]) State.reset (okResponse [] [] [.frError]) := answers_of (by decide +kernel)

theorem witness_EveryWireByteAccountedFor :
    State.reset.framer.Inv ∧ Answers (.frRecv fr3) State.reset (okResponse [] [] [.frLink 0x0F 0]) :=
  ⟨by decide +kernel, answers_of (by decide +kernel)⟩

/-- Both parse states, and both ends of the payload length. -/
theorem witness_DataFrameRoundTrip :
    (State.reset.framer.state = .sof1 ∧ (framerAfter fr3).state = .sof2) ∧ (2047 : Word64).toNat ≤ 2047 ∧
    (0xFFFF : Word64).toNat ≤ 0xFFFF ∧ 1 ≤ [(0 : Byte)].length ∧ (List.replicate 256 (0 : Byte)).length ≤ 256 := by
  decide +kernel

theorem witness_LinkFrameRoundTrip :
    State.reset.framer.state = .sof1 ∧ IsLinkType 0x17 ∧ (2047 : Word64).toNat ≤ 2047 :=
  ⟨rfl, by unfold IsLinkType; decide, by decide⟩

theorem witness_FrameAcceptedAfterReset :
    exec .frReset booted = .next (run .frReset booted) ∧
    (∃ rest, (present .globalReset booted).port = .globalReset :: rest ∧
      step (present .globalReset booted) = .next (after (step (present .globalReset booted)))) ∧
    OperandsLegal (.frConstructLink 0x0F 2047) ∧ OperandsLegal (.frConstructData 2047 0xFFFF [0]) :=
  ⟨eq_next_after (by decide +kernel), ⟨booted.port, rfl, eq_next_after (by decide +kernel)⟩,
    by unfold OperandsLegal IsLinkType; decide, by unfold OperandsLegal; decide⟩

theorem witness_DeliveredFramesAreEncodings :
    ((framerAfter (fr3.take 8)).Inv ∧
      .frLink 0x0F 0 ∈ (frStep (crc32Update 0) (framerAfter (fr3.take 8)) 0x55).events) ∧
    (framerAfter (fr1.take 13)).Inv ∧
      .frData 0 0 [0] ∈ (frStep (crc32Update 0) (framerAfter (fr1.take 13)) 0x55).events :=
  ⟨⟨by decide +kernel, by decide +kernel⟩, by decide +kernel, by decide +kernel⟩

/-- A framer that holds one byte, and the same framer with another byte after it. -/
def stale (fr : Framer) : Framer := { fr with buf := fr.buf.set 1 0xAA }

/-- A state with the rest of FR-3 to come. -/
def midFrame : State := present (.command (encode (.frRecv (fr3.drop 1))) ⟨0, 0⟩) (run (.frRecv [0x55]) State.reset)

theorem witness_StaleBufferBytesNeverObserved :
    midFrame.framer.Inv ∧ midFrame.framer.n = 1 ∧ midFrame.framer ≠ stale midFrame.framer ∧
    midFrame.framer.AgreesBelowN (stale midFrame.framer) ∧ step midFrame = .next (after (step midFrame)) := by
  have hn : midFrame.framer.n = 1 := by decide +kernel
  refine ⟨by decide +kernel, hn, by decide +kernel, ⟨rfl, fun i h => ?_⟩, eq_next_after (by decide +kernel)⟩
  obtain rfl : i = 0 := by omega
  decide +kernel

/-- The last port and the last flags, and the values beyond them. -/
theorem witness_TpRegisterResult :
    ((31 : BitVec 5).toNat = (31 : BitVec 8).toNat ∧ (3 : Word64).toNat ≤ 3) ∧ 31 < (32 : BitVec 8).toNat ∧
    3 < (4 : Word64).toNat := by decide

theorem witness_TpRegisterDefaultResult : (3 : Word64).toNat ≤ 3 ∧ 3 < (4 : Word64).toNat := by decide

theorem witness_TpSendResult :
    ((31 : BitVec 8).toNat ≤ 31 ∧ (3 : Word64).toNat ≤ 3 ∧ (0xFF : Word64).toNat ≤ 0xFF) ∧
    31 < (32 : BitVec 8).toNat ∧ 3 < (4 : Word64).toNat ∧ 0xFF < (0x100 : Word64).toNat := by decide

theorem witness_TpEventResult : (zeroTx 0x33 2 1).framed = true ∧ (zeroTx 0x33 2 1).len ≠ 0 := by decide

theorem witness_TpRecvResult : (0xFFFF : Word64).toNat ≤ 0xFFFF ∧ 0xFFFF < (0x10000 : Word64).toNat := by decide

/-- A message its port takes, and one that nobody takes. -/
theorem witness_PortIsolation :
    Answers (.tpRecv 0x5AC5 [1]) port5 (okResponse [] [] [.portRecv (.port 5) 0x77 5 3 0x5A [1]]) ∧
    Answers (.tpRecv 0x0087 [2]) port5 (okResponse [] [] []) ∧
    (port5.transport.slot 7).rxEn = false ∧ port5.transport.deflt.rxEn = false :=
  ⟨answers_of (by decide +kernel), answers_of (by decide +kernel), by decide +kernel, by decide +kernel⟩

theorem witness_SequencePassThrough : (port5.transport.slot 5).rxEn = true := by decide +kernel

theorem witness_LastEventStaysCached :
    (presenting ⟨0x33040000, [], []⟩).transport.Inv ∧
    step (presenting ⟨0x33040000, [], []⟩) = .next (after (step (presenting ⟨0x33040000, [], []⟩))) :=
  ⟨by decide +kernel, eq_next_after (by decide +kernel)⟩

theorem witness_MetaIsNeverRead :
    exec (.tpRegister 7 1 0x70 0xABC) port5 = .next (run (.tpRegister 7 1 0x70 0xABC) port5) :=
  eq_next_after (by decide +kernel)

/-- Both ends of the legal frequencies. -/
theorem witness_TsResetResult :
    Params.Legal { counterHz := 1, updateProcessMax := 1, frameCrc := .crc32 } ∧
    Params.Legal { counterHz := 2 ^ 62, updateProcessMax := 15, frameCrc := .supplied } := by decide

theorem witness_TsReadResult : (zeroTx 0x43 1 0).framed = true ∧ (zeroTx 0x43 1 0).a ≠ 0 := by decide
theorem witness_TsTimeResult : (zeroTx 0x42 0 1).framed = true ∧ (zeroTx 0x42 0 1).len ≠ 0 := by decide

/-- A sample of each rejection; the last at the very counter of the sample before. -/
theorem witness_TsUpdateRejections :
    (0 : Word64).toInt = 0 ∧
    (¬ ((3 : Word64).toInt = 0 ∨ (4 : Word64).toInt = 0) ∧ (9 : Word64).toNat > (5 : Word64).toNat) ∧
    ¬ ((1000 : Word64).toNat > (1000 : Word64).toNat ∨ tB.toInt > tB.toInt) ∧ booted.timeSync.nhist ≠ 0 ∧
    (1000 : Word64).toNat + ((1000 : Word64).toNat - (1000 : Word64).toNat) / 2 ≤
      (booted.timeSync.entry (booted.timeSync.head - 1)).counter.toNat := by decide +kernel

theorem witness_TsUpdateBootstraps :
    State.reset.params.Legal ∧ State.reset.timeSync.nhist = 0 ∧ (-3 : Word64).toInt ≠ 0 ∧ (-1 : Word64).toInt ≠ 0 ∧
    (5 : Word64).toNat ≤ (9 : Word64).toNat ∧ (-3 : Word64).toInt ≤ (-1 : Word64).toInt := by decide +kernel

/-- One second of difference, which is no resync, and one unit more, which is one: the sample is one second after the
bootstrap, so its prediction is B + G. -/
theorem witness_TsUpdateForceResync :
    booted.timeSync.nhist ≠ 0 ∧ (tB + 2 * tG).toInt ≠ 0 ∧
    (booted.timeSync.entry (booted.timeSync.head - 1)).counter.toNat < 2000 ∧
    booted.timeSync.timeAt 2000 = (tB + tG).toInt ∧
    |(tB + 2 * tG).toInt - (tB + tG).toInt| = 2 ^ 30 ∧ |(tB + 2 * tG + 1).toInt - (tB + tG).toInt| = 2 ^ 30 + 1 := by
  decide +kernel

/-- The determinant of TS_UPDATE's innovation covariance, for a sample of zero delay at a counter and a time. -/
def detAt (s : State) (c t : Int) : Int :=
  let x : RoundTrip := { c := c, t := t, dcnt := 0 }
  let ts := s.timeSync
  let cov := predictCov (elapsed s.params.counterHz (c - u64 ts.counterOffset)) ts.cov
  determinant (innovationCov cov
    (measurement s.params.counterHz x (ts.entry (ts.head - ts.nhist)) (ts.timeAt c) ts.ds.toInt))

/-- A positive determinant, and one that saturation makes 0. -/
theorem witness_TsUpdatePredictsAndCorrects :
    (booted.params.Legal ∧ booted.timeSync.Inv booted.params ∧ booted.timeSync.nhist ≠ 0 ∧
      0 < detAt booted 2000 (tB + tG).toInt) ∧
    (saturated.params.Legal ∧ saturated.timeSync.Inv saturated.params ∧ saturated.timeSync.nhist ≠ 0 ∧
      detAt saturated 2000 (tB + tG).toInt ≤ 0) ∧
    (saturated.timeSync.entry (saturated.timeSync.head - 1)).counter.toNat < 2000 ∧
    |(tB + tG).toInt - saturated.timeSync.timeAt 2000| ≤ 2 ^ 30 := by decide +kernel

theorem witness_TimeSyncInvariantKept :
    booted.params.Legal ∧ booted.timeSync.Inv booted.params ∧
    step (present (.command (encode (.tsUpdate 2000 tB tB 2000)) ⟨0, 0⟩) booted) =
      .next (after (step (present (.command (encode (.tsUpdate 2000 tB tB 2000)) ⟨0, 0⟩) booted))) :=
  ⟨by decide +kernel, by decide +kernel, eq_next_after (by decide +kernel)⟩

theorem witness_CounterSpansArePositive :
    booted.params.Legal ∧ booted.timeSync.Inv booted.params ∧ booted.timeSync.nhist ≠ 0 ∧
    u64 (booted.timeSync.entry (booted.timeSync.head - 1)).counter < 1001 := by decide +kernel

theorem witness_ResetMeetsTheInvariant :
    Params.Legal { counterHz := 2 ^ 62, updateProcessMax := 1, frameCrc := .supplied } := by decide

end Sys2Proof.Tests
end

section
/-! PROOFS. The family of spec/10_state.md: what a command and a step do to each part of the state, and the invariants
of framer, Transport and filter that every step keeps. -/

namespace Sys2Proof.Machine

/-! ## What a command does to each part of the state -/

/-- The scan one `FR_RECV` runs: the received bytes counted, then fed (R161, R163). -/
def recvScan (s : State) (data : List Byte) : ScanResult :=
  scan (frameCrc s.params.frameCrc) (scanBound data.length)
    { s.framer with totalBytes := s.framer.totalBytes + BitVec.ofNat 64 data.length } data

@[simp] theorem okResponse_events (res : List Word64) (out : List Byte) (events : List Event) :
    (okResponse res out events).events = events := rfl

/-- The state after a scan: its framer, and a response with its events. -/
def afterScan (s : State) (r : ScanResult) : State :=
  respond (okResponse [] [] r.events) { s with framer := r.framer }

@[simp] theorem afterScan_framer (s : State) (r : ScanResult) : (afterScan s r).framer = r.framer := rfl

@[simp] theorem afterScan_transport (s : State) (r : ScanResult) : (afterScan s r).transport = s.transport := rfl

@[simp] theorem afterScan_timeSync (s : State) (r : ScanResult) : (afterScan s r).timeSync = s.timeSync := rfl

@[simp] theorem afterScan_responses (s : State) (r : ScanResult) :
    (afterScan s r).responses = s.responses ++ [okResponse [] [] r.events] := rfl

/-- `FR_RECV` leaves the framer of its scan and answers its events; nothing else changes. -/
theorem exec_frRecv_iff {data : List Byte} {s t : State} :
    exec (.frRecv data) s = .next t ↔ t = afterScan s (recvScan s data) :=
  complete_eq_next_iff _ _ _ _ _

/-- What one command can do to the three sub-units: it writes at most one of them. The framer is only reset or fed, the
last event only gets a cached code, and the filter is only reset or given a sample. -/
inductive UnitEffect (s t : State) : Prop where
  /-- No unit is written. -/
  | unchanged (framer : t.framer = s.framer) (transport : t.transport = s.transport)
      (timeSync : t.timeSync = s.timeSync)
  /-- `FR_RESET` (R160). -/
  | framerReset (framer : t.framer = { Framer.reset with buf := s.framer.buf })
      (transport : t.transport = s.transport) (timeSync : t.timeSync = s.timeSync)
  /-- `FR_RECV` (R161). -/
  | framerFed (data : List Byte) (framer : t.framer = (recvScan s data).framer)
      (transport : t.transport = s.transport) (timeSync : t.timeSync = s.timeSync)
  /-- A registration or an event (R221, R223, R228). -/
  | transportSet (framer : t.framer = s.framer)
      (lastEvent : t.transport.lastEvent = s.transport.lastEvent ∨ isCached t.transport.lastEvent = true)
      (timeSync : t.timeSync = s.timeSync)
  /-- `TS_RESET` (R280). -/
  | timeSyncReset (framer : t.framer = s.framer) (transport : t.transport = s.transport)
      (timeSync : t.timeSync = TimeSync.reset s.params.counterHz)
  /-- `TS_UPDATE` (R265). -/
  | timeSyncFed (srcTx tgtRx tgtTx srcRx : Word64) (framer : t.framer = s.framer)
      (transport : t.transport = s.transport)
      (timeSync : t.timeSync =
        (updateFilter s.params (u64 srcTx) (s64 tgtRx) (s64 tgtTx) (u64 srcRx) s.timeSync).1)

/-- Every command has one of the effects of `UnitEffect`. -/
theorem exec_unitEffect {i : Instr} {s t : State} (h : exec i s = .next t) : UnitEffect s t := by
  cases i with
  | nop | frStatus | tsTime | tsRead => cases h; exact .unchanged rfl rfl rfl
  | crc8 | crc16 | crc32 | frConstructData | frConstructLink | tpRecv =>
    simp only [exec, execCrc8, execCrc16, execCrc32, execFrConstructData, execFrConstructLink, execTpRecv] at h
    split at h <;> cases h <;> exact .unchanged rfl rfl rfl
  | frReset => cases h; exact .framerReset rfl rfl rfl
  | frRecv data =>
    obtain rfl := exec_frRecv_iff.mp h
    exact .framerFed data (afterScan_framer _ _) (afterScan_transport _ _) (afterScan_timeSync _ _)
  | tpRegister | tpRegisterDefault =>
    simp only [exec, execTpRegister, execTpRegisterDefault] at h
    split at h <;> cases h <;> exact .transportSet rfl (.inl rfl) rfl
  | tpSend a seq portData data =>
    simp only [exec, execTpSend] at h
    repeat' split at h
    all_goals cases h; exact .unchanged rfl rfl rfl
  | tpEvent a =>
    simp only [exec, execTpEvent] at h
    by_cases hc : isCached a = true
    · rw [if_pos hc] at h; cases h; exact .transportSet rfl (.inr hc) rfl
    · rw [if_neg hc] at h; cases h; exact .transportSet rfl (.inl rfl) rfl
  | tsReset => cases h; exact .timeSyncReset rfl rfl rfl
  | tsUpdate srcTx tgtRx tgtTx srcRx => cases h; exact .timeSyncFed srcTx tgtRx tgtTx srcRx rfl rfl rfl

/-- Outside the sub-units a command adds one response and leaves the rest. -/
theorem exec_frame {i : Instr} {s t : State} (h : exec i s = .next t) :
    t.params = s.params ∧ t.port = s.port ∧ t.env = s.env ∧ t.pos = s.pos ∧
      ∃ r, t.responses = s.responses ++ [r] := by
  obtain ⟨r, fr, tp, ts, he⟩ := exec_answers i s
  rw [he] at h
  cases h
  exact ⟨rfl, rfl, rfl, rfl, r, rfl⟩

/-! ## From commands to steps -/

/-- A property of the parameters and the three sub-units that the reset input and every command keep is kept by every
step. -/
theorem step_keeps {P : State → Prop} (hunits : ∀ {s t}, SameUnits s t → P s → P t)
    (hreset : ∀ {s} rest, P s → P (takeGlobalReset rest s))
    (hexec : ∀ {i s t}, P s → exec i s = .next t → P t) {s t : State} (hs : P s) (h : step s = .next t) : P t := by
  rcases step_cases h with ⟨-, rfl⟩ | ⟨rest, -, rfl⟩ | ⟨tx, env, rest, i, -, -, he⟩ | ⟨tx, env, rest, opc, -, -, rfl⟩
  · exact hs
  · exact hreset rest hs
  · have htaken : P (acceptCommand env rest s) := hunits (s := s) ⟨rfl, rfl, rfl, rfl⟩ hs
    exact hexec htaken he
  · exact hunits (s := s) ⟨rfl, rfl, rfl, rfl⟩ hs

/-- A step at a presented command runs a command, or gives one zeroed response, at the state in which it is taken. -/
theorem step_command_cases {s t : State} {tx : Transaction} {env : EnvInputs} {rest : List HostInput}
    (hp : s.port = .command tx env :: rest) (h : step s = .next t) :
    (∃ i, exec i (acceptCommand env rest s) = .next t) ∨
      ∃ r, t = respond r (acceptCommand env rest s) := by
  rcases step_cases h with ⟨hp', -⟩ | ⟨rest', hp', -⟩ | ⟨tx', env', rest', i, hp', -, he⟩ |
      ⟨tx', env', rest', opc, hp', -, rfl⟩ <;> rw [hp] at hp' <;> cases hp'
  · exact .inl ⟨i, he⟩
  · exact .inr ⟨_, rfl⟩

/-- Settles O4: `acceptCommand` is the state the statement writes out. -/
theorem stepRunsTheDecodedCommand : Obligations.StepRunsTheDecodedCommand :=
  fun _ _ _ _ _ hp hd => step_of_decode_ok hp hd

/-- Settles O6, from the frame of `exec` and of a failing response. -/
theorem commandTakenOnceAnsweredOnce : Obligations.CommandTakenOnceAnsweredOnce := by
  intro s tx env rest t hp h
  rcases step_command_cases hp h with ⟨i, he⟩ | ⟨r, rfl⟩
  · obtain ⟨hparams, hport, henv, hpos, hresp⟩ := exec_frame he
    exact ⟨hport, henv, hpos, hparams, hresp⟩
  · exact ⟨rfl, rfl, rfl, rfl, r, rfl⟩

/-! ## The Transport's invariant -/

/-- The cached codes are the four of R45. -/
theorem isCached_iff (e : BitVec 8) : isCached e = true ↔ e = 1 ∨ e = 2 ∨ e = 3 ∨ e = 4 := by
  simp [isCached, cachedEvents]

theorem Transport.inv_reset : Transport.reset.Inv := .inl rfl

theorem exec_keeps_transportInv {i : Instr} {s t : State} (hs : s.transport.Inv) (h : exec i s = .next t) :
    t.transport.Inv := by
  cases exec_unitEffect h with
  | unchanged _ htp _ | framerReset _ htp _ | framerFed _ _ htp _ | timeSyncReset _ htp _
  | timeSyncFed _ _ _ _ _ htp _ => rwa [htp]
  | transportSet _ hlast _ =>
    rcases hlast with hsame | hcached
    · rwa [Transport.Inv, hsame]
    · exact (isCached_iff _).mp hcached

/-- Settles O47: only an event with a cached code writes `TP_LAST_EVENT` (R228), and reset sets it to 1. -/
theorem lastEventStaysCached : Obligations.LastEventStaysCached := fun _ _ =>
  step_keeps (P := fun s => s.transport.Inv) (fun hu hs => by rwa [hu.2.2.1]) (fun _ _ => Transport.inv_reset)
    exec_keeps_transportInv

/-! ## The filter's invariant -/

/-- The nominal scale fits its word and is positive, for a legal frequency (R48, R55). -/
theorem scaleNom_bounds {f : Nat} (h1 : 1 ≤ f) (h2 : f ≤ 2 ^ 62) : 1 ≤ scaleNom f ∧ scaleNom f ≤ 2 ^ 64 - 1 := by
  rw [scaleNom, floorDiv_of_pos _ (by omega)]
  constructor
  · exact Int.le_ediv_of_mul_le (by omega) (by omega)
  · exact Int.le_sub_one_of_lt (Int.ediv_lt_of_lt_mul (by omega) (by omega))

/-- A positive 64-bit quantity stays positive as a word. -/
theorem one_le_toNat_wrapu64 {v : Int} (h1 : 1 ≤ v) (h2 : v ≤ 2 ^ 64 - 1) : 1 ≤ (wrapu64 v).toNat := by
  have h := u64_wrapu64 (by omega) h2
  unfold u64 at h
  omega

theorem TimeSync.inv_reset {p : Params} (h : p.Legal) : (TimeSync.reset p.counterHz).Inv p := by
  obtain ⟨⟨hf1, hf2⟩, -, -⟩ := h
  obtain ⟨h1, h2⟩ := scaleNom_bounds hf1 hf2
  exact ⟨Nat.zero_le _, one_le_toNat_wrapu64 h1 h2, fun h => absurd rfl h, fun _ h => absurd h (Nat.not_lt_zero _)⟩

/-- The counter of an accepted sample lies between the two local counters it is the mean of, so its word holds it
(R266). -/
theorem u64_wrapu64_roundTrip_c {srcTx srcRx : Word64} (trx ttx : Int) (h : ¬ u64 srcTx > u64 srcRx) :
    u64 (wrapu64 (roundTrip (u64 srcTx) trx ttx (u64 srcRx)).c) = (roundTrip (u64 srcTx) trx ttx (u64 srcRx)).c := by
  have h1 := u64_nonneg srcTx
  have h2 := u64_le srcRx
  simp only [roundTrip, floorDiv_of_pos _ (show (0 : Int) < 2 by decide)]
  apply u64_wrapu64 <;> omega

theorem TimeSync.history_zero (ts : TimeSync) : ts.history 0 = ts.entry (ts.head - 1) := by
  simp [TimeSync.history]

/-- After a push the newest history entry is the sample pushed. -/
theorem TimeSync.history_push_zero (ts : TimeSync) (x : RoundTrip) :
    (ts.push x).history 0 = { counter := wrapu64 x.c, time := wrapu64 x.t, dcounter := wrapu64 x.dcnt } := by
  simp [TimeSync.history]

/-- After a push every other history entry is one sample further back; only the sixteenth back is overwritten. -/
theorem TimeSync.history_push_succ (ts : TimeSync) (x : RoundTrip) {j : BitVec 4} (h : j ≠ 15) :
    (ts.push x).history (j + 1) = ts.history j := by
  have hslot : ts.head + 1 - 1 - (j + 1) = ts.head - 1 - j := by bv_omega
  simp only [TimeSync.history, TimeSync.push_head, hslot]
  exact TimeSync.entry_push_ne ts x (by bv_omega)

/-- The history counters of a filter rise strictly over its `n` newest entries (R271). -/
def TimeSync.Rising (ts : TimeSync) (n : Nat) : Prop :=
  ∀ j : BitVec 4, j.toNat + 1 < n → (ts.history (j + 1)).counter.toNat < (ts.history j).counter.toNat

/-- Pushing a sample that advances keeps the history rising, with one more entry, up to fifteen. -/
theorem TimeSync.rising_push {ts : TimeSync} {x : RoundTrip} {n m : Nat} (hr : ts.Rising n) (hmn : m ≤ n + 1)
    (hm : m ≤ 15) (hx : u64 (wrapu64 x.c) = x.c) (hnew : n ≠ 0 → u64 (ts.history 0).counter < x.c) :
    (ts.push x).Rising m := by
  intro j hj
  rw [TimeSync.history_push_succ ts x (by bv_omega)]
  by_cases h0 : j = 0
  · subst h0
    have hlt := hnew (by omega)
    rw [← hx] at hlt
    rw [TimeSync.history_push_zero]
    exact Int.ofNat_lt.mp hlt
  · have hj1 : j - 1 + 1 = j := by bv_omega
    have hold := hr (j - 1) (by bv_omega)
    have hback := TimeSync.history_push_succ ts x (j := j - 1) (by bv_omega)
    rw [hj1] at hold hback
    rwa [hback]

theorem nextNhist_toNat {m : Nat} (h : m ≤ 15) (n : BitVec 4) : (nextNhist m n).toNat = min (n.toNat + 1) m := by
  rw [nextNhist, BitVec.toNat_ofNat]
  omega

/-- Bootstrap and both commits have this form: the pushed history, the sample's counter committed, one more history
entry up to M, and a positive scale. It keeps the invariant. -/
theorem TimeSync.inv_of_committed {p : Params} {ts u : TimeSync} {x : RoundTrip} (hp : p.Legal) (hi : ts.Inv p)
    (hx : u64 (wrapu64 x.c) = x.c) (hnew : ts.nhist ≠ 0 → u64 (ts.history 0).counter < x.c)
    (hhist : u.history = (ts.push x).history) (hnhist : u.nhist = nextNhist p.updateProcessMax ts.nhist)
    (hoffset : u.counterOffset = wrapu64 x.c) (hscale : 1 ≤ u.scale.toNat) : u.Inv p := by
  obtain ⟨-, -, hm⟩ := hp
  obtain ⟨-, -, -, hrising⟩ := hi
  have hcount := nextNhist_toNat hm ts.nhist
  have hnew' : ts.nhist.toNat ≠ 0 → u64 (ts.history 0).counter < x.c := fun h => hnew (by bv_omega)
  rw [TimeSync.Inv, hnhist, hcount, hhist, hoffset, TimeSync.history_push_zero]
  exact ⟨Nat.min_le_right _ _, hscale, fun _ => rfl,
    TimeSync.rising_push hrising (Nat.min_le_left _ _) ((Nat.min_le_right _ _).trans hm) hx hnew'⟩

/-- Bootstrapping from a pushed sample keeps the invariant (R270). -/
theorem TimeSync.inv_bootstrap_push {p : Params} {ts : TimeSync} {x : RoundTrip} (hp : p.Legal) (hi : ts.Inv p)
    (hx : u64 (wrapu64 x.c) = x.c) (h0 : ts.nhist = 0) : ((ts.push x).bootstrap p.counterHz x).Inv p := by
  obtain ⟨⟨hf1, hf2⟩, hm1, -⟩ := id hp
  obtain ⟨hs1, hs2⟩ := scaleNom_bounds hf1 hf2
  have hone : nextNhist p.updateProcessMax ts.nhist = 1 := by simp [h0, nextNhist, hm1]
  exact TimeSync.inv_of_committed hp hi hx (absurd h0) rfl hone.symm rfl (one_le_toNat_wrapu64 hs1 hs2)

/-- The predict-and-correct step on a pushed sample that advances keeps the invariant, each of its three ways (R272,
R275, R277). -/
theorem predictCorrect_push_keeps_inv {p : Params} {ts : TimeSync} {x : RoundTrip} (k : BitVec 4) (hp : p.Legal)
    (hi : ts.Inv p) (hx : u64 (wrapu64 x.c) = x.c) (hnew : ts.nhist ≠ 0 → u64 (ts.history 0).counter < x.c) :
    (predictCorrect p k x (ts.push x)).1.Inv p := by
  obtain ⟨-, hscale, -, -⟩ := id hi
  rcases predictCorrect_cases p k x (ts.push x) with he | ⟨tp, cov, he⟩ | ⟨tp, dtau, dsig, cov, he⟩ <;> rw [he]
  · exact ⟨Nat.zero_le _, hscale, absurd rfl, fun _ h => absurd h (Nat.not_lt_zero _)⟩
  · exact TimeSync.inv_of_committed hp hi hx hnew rfl rfl rfl hscale
  · obtain ⟨h1, h2⟩ := satu64_bounds
      (scaleNom p.counterHz + floorDiv (scaleNom p.counterHz * sat128 ((ts.push x).ds.toInt + dsig)) (2 ^ 62))
    exact TimeSync.inv_of_committed hp hi hx hnew rfl rfl rfl (one_le_toNat_wrapu64 h1 h2)

/-- The filter step on a pushed sample that advances keeps the invariant (R269). -/
theorem filterStep_push_keeps_inv {p : Params} {ts : TimeSync} {x : RoundTrip} (k : BitVec 4) (hp : p.Legal)
    (hi : ts.Inv p) (hx : u64 (wrapu64 x.c) = x.c) (hnew : ts.nhist ≠ 0 → u64 (ts.history 0).counter < x.c) :
    (filterStep p k x (ts.push x)).1.Inv p := by
  by_cases h0 : (ts.push x).nhist = 0
  · rw [filterStep_of_nhist_eq_zero p k x h0]
    exact TimeSync.inv_bootstrap_push hp hi hx h0
  · rw [filterStep_of_nhist_ne_zero p k x h0]
    exact predictCorrect_push_keeps_inv k hp hi hx hnew

/-- One `TS_UPDATE` keeps the filter's invariant (R265 to R277). -/
theorem updateFilter_keeps_inv {p : Params} {ts : TimeSync} (srcTx srcRx : Word64) (trx ttx : Int) (hp : p.Legal)
    (hi : ts.Inv p) : (updateFilter p (u64 srcTx) trx ttx (u64 srcRx) ts).1.Inv p := by
  by_cases hnone : trx = 0 ∨ ttx = 0
  · rwa [updateFilter_of_noTime p ts hnone]
  by_cases hback : u64 srcTx > u64 srcRx ∨ trx > ttx
  · rwa [updateFilter_of_backwards p ts hnone hback]
  by_cases hstale : ts.nhist ≠ 0 ∧
      (roundTrip (u64 srcTx) trx ttx (u64 srcRx)).c ≤ u64 (ts.entry (ts.head - 1)).counter
  · rwa [updateFilter_of_stale p ts hnone hback hstale]
  rw [updateFilter_of_accepted p ts hnone hback hstale]
  refine filterStep_push_keeps_inv ts.head hp hi (u64_wrapu64_roundTrip_c trx ttx fun h => hback (.inl h)) fun hn => ?_
  rw [TimeSync.history_zero]
  exact not_le.mp fun hle => hstale ⟨hn, hle⟩

theorem exec_keeps_timeSyncInv {i : Instr} {s t : State} (hs : s.params.Legal ∧ s.timeSync.Inv s.params)
    (h : exec i s = .next t) : t.params.Legal ∧ t.timeSync.Inv t.params := by
  obtain ⟨hp, hi⟩ := hs
  obtain ⟨hparams, -⟩ := exec_frame h
  rw [hparams]
  cases exec_unitEffect h with
  | unchanged _ _ hts | framerReset _ _ hts | framerFed _ _ _ hts | transportSet _ _ hts => exact ⟨hp, by rwa [hts]⟩
  | timeSyncReset _ _ hts => exact ⟨hp, by rw [hts]; exact TimeSync.inv_reset hp⟩
  | timeSyncFed srcTx tgtRx tgtTx srcRx _ _ hts =>
    exact ⟨hp, by rw [hts]; exact updateFilter_keeps_inv srcTx srcRx _ _ hp hi⟩

/-- Settles O56: with the parameters unchanged, only the reset value and `TS_UPDATE` are written to the filter. -/
theorem timeSyncInvariantKept : Obligations.TimeSyncInvariantKept := by
  intro s t hp hi h
  have hkept : t.params.Legal ∧ t.timeSync.Inv t.params :=
    step_keeps (P := fun s => s.params.Legal ∧ s.timeSync.Inv s.params)
      (fun ⟨hparams, _, _, hts⟩ hs => by rwa [hparams, hts])
      (fun _ ⟨hp, _⟩ => ⟨hp, TimeSync.inv_reset hp⟩) exec_keeps_timeSyncInv ⟨hp, hi⟩ h
  exact hkept.2

/-! ## The framer's invariant, by parse state -/

theorem Framer.inv_iff_of_sof1 {fr : Framer} (hs : fr.state = .sof1) : fr.Inv ↔ fr.n = 0 := by
  simp [Framer.Inv, Framer.R42, Framer.Checked, hs]

theorem Framer.inv_iff_of_sof2 {fr : Framer} (hs : fr.state = .sof2) : fr.Inv ↔ fr.n = 1 ∧ fr.byteAt 0 = 0x55 := by
  simp [Framer.Inv, Framer.R42, Framer.Checked, hs]

theorem Framer.inv_iff_of_frameType {fr : Framer} (hs : fr.state = .frameType) :
    fr.Inv ↔ fr.n = 2 ∧ fr.byteAt 0 = 0x55 ∧ fr.byteAt 1 = 0x00 := by
  simp [Framer.Inv, Framer.R42, Framer.Checked, hs]

theorem Framer.inv_iff_of_dataHeader {fr : Framer} (hs : fr.state = .dataHeader) :
    fr.Inv ↔ (3 ≤ fr.n ∧ fr.n ≤ 5) ∧ (fr.byteAt 0 = 0x55 ∧ fr.byteAt 1 = 0x00) ∧
      frameTypeOf (fr.byteAt 2) = typeData := by
  simp [Framer.Inv, Framer.R42, Framer.Checked, hs, frameTypeOf, typeData]

/-- In `STORE` the header held is that of a data frame whose length byte passed its check, or of a link frame. -/
theorem Framer.inv_iff_of_store {fr : Framer} (hs : fr.state = .store) :
    fr.Inv ↔ (fr.n < fr.target ∧ fr.byteAt 0 = 0x55 ∧ fr.byteAt 1 = 0x00) ∧
      ((frameTypeOf (fr.byteAt 2) = typeData ∧ 6 ≤ fr.n ∧ fr.target = (fr.byteAt 4).toNat + 14 ∧
          fr.byteAt 5 = lenCrc (fr.byteAt 4)) ∨
        (isLinkType (frameTypeOf (fr.byteAt 2)) = true ∧ 3 ≤ fr.n ∧ fr.target = linkSize + 1)) := by
  have hlen := (fr.byteAt 4).isLt
  have hinv : fr.Inv ↔ ((3 ≤ fr.n ∧ fr.n < fr.target ∧ fr.target ≤ 269) ∧ (fr.byteAt 0 = 0x55 ∧ fr.byteAt 1 = 0x00) ∧
      if frameTypeOf (fr.byteAt 2) = typeData then fr.target = (fr.byteAt 4).toNat + 14 else fr.target = 9) ∧
      if frameTypeOf (fr.byteAt 2) = typeData then 6 ≤ fr.n ∧ fr.byteAt 5 = lenCrc (fr.byteAt 4)
      else isLinkType (frameTypeOf (fr.byteAt 2)) = true := by
    simp only [Framer.Inv, Framer.R42, Framer.Checked, hs, reduceCtorEq, false_imp_iff, true_and, forall_const]
    exact Iff.rfl
  rw [hinv, linkSize]
  split
  · constructor
    · rintro ⟨⟨⟨-, hlt, -⟩, hsof, htarget⟩, h6, hcrc⟩
      exact ⟨⟨hlt, hsof⟩, .inl ⟨‹_›, h6, htarget, hcrc⟩⟩
    · rintro ⟨⟨hlt, hsof⟩, ⟨-, h6, htarget, hcrc⟩ | ⟨hlink, -, -⟩⟩
      · exact ⟨⟨⟨by omega, hlt, by omega⟩, hsof, htarget⟩, h6, hcrc⟩
      · rw [‹frameTypeOf _ = typeData›] at hlink
        exact absurd hlink (by decide)
  · constructor
    · rintro ⟨⟨⟨h3, hlt, -⟩, hsof, htarget⟩, hlink⟩
      exact ⟨⟨hlt, hsof⟩, .inr ⟨hlink, h3, htarget⟩⟩
    · rintro ⟨⟨hlt, hsof⟩, ⟨hdata, -⟩ | ⟨hlink, h3, htarget⟩⟩
      · exact absurd hdata ‹_›
      · exact ⟨⟨⟨h3, hlt, by omega⟩, hsof, htarget⟩, hlink⟩

/-- The invariant leaves room for the next byte (R42, R95). -/
theorem Framer.Inv.n_lt {fr : Framer} (h : fr.Inv) : fr.n < 269 := by
  have hlen := (fr.byteAt 4).isLt
  cases hs : fr.state with
  | sof1 => have := (Framer.inv_iff_of_sof1 hs).mp h; omega
  | sof2 => have := (Framer.inv_iff_of_sof2 hs).mp h; omega
  | frameType => have := (Framer.inv_iff_of_frameType hs).mp h; omega
  | dataHeader => have := (Framer.inv_iff_of_dataHeader hs).mp h; omega
  | store => have := (Framer.inv_iff_of_store hs).mp h; simp only [linkSize] at this; omega

theorem Framer.inv_reset : Framer.reset.Inv := (Framer.inv_iff_of_sof1 rfl).mpr rfl

/-! ## What one wire byte does -/

/-- What one byte can do to a framer that meets its invariant: it is ignored, or it is held as the next byte of the
candidate, which then goes on, is given up, or is delivered (R164 to R175). -/
inductive ByteEffect (fr : Framer) (b : Byte) : ScanStep → Prop where
  /-- In `SOF1`, a byte that is no start byte (R165). -/
  | skipped (hs : fr.state = .sof1) : ByteEffect fr b ⟨(frError fr).1.ignoreByte, (frError fr).2, []⟩
  /-- In `SOF2`, a repeated SOF1 (R166). -/
  | padding (hs : fr.state = .sof2) : ByteEffect fr b (quiet fr.ignoreByte)
  /-- The byte is held and the candidate goes on. -/
  | held (st : ParseState) (target : Nat) (hinv : Framer.Inv { fr.storeAt fr.n b with state := st, target := target }) :
      ByteEffect fr b (quiet { fr.storeAt fr.n b with state := st, target := target })
  /-- The byte is held and the candidate is given up (R175). -/
  | givenUp : ByteEffect fr b (frResync (fr.storeAt fr.n b))
  /-- The byte completes a candidate, which is delivered (R174). -/
  | delivered (hs : fr.state = .store) (hn : fr.n + 1 = fr.target) :
      ByteEffect fr b (frDispatch (fr.storeAt fr.n b))

theorem stepSof1_effect {fr : Framer} (b : Byte) (h : fr.Inv) (hs : fr.state = .sof1) :
    ByteEffect fr b (stepSof1 fr b) := by
  have hn := (Framer.inv_iff_of_sof1 hs).mp h
  unfold stepSof1
  split
  next hb =>
    rw [← hn]
    refine .held .sof2 fr.target ((Framer.inv_iff_of_sof2 rfl).mpr ⟨by simp [hn], ?_⟩)
    rw [hn]
    exact (fr.byteAt_storeAt_self b (by omega)).trans hb
  next => exact .skipped hs

/-- Holding the next byte leaves the bytes already held as they are. -/
theorem Framer.byteAt_storeAt_of_lt {fr : Framer} {i : Nat} (b : Byte) (h : i < fr.n) :
    (fr.storeAt fr.n b).byteAt i = fr.byteAt i :=
  fr.byteAt_storeAt_ne b (Nat.ne_of_lt h)

theorem stepSof2_effect {fr : Framer} (b : Byte) (h : fr.Inv) (hs : fr.state = .sof2) :
    ByteEffect fr b (stepSof2 fr b) := by
  obtain ⟨hn, h0⟩ := (Framer.inv_iff_of_sof2 hs).mp h
  have hb0 : (fr.storeAt fr.n b).byteAt 0 = fr.byteAt 0 := Framer.byteAt_storeAt_of_lt b (by omega)
  have hb1 : (fr.storeAt fr.n b).byteAt 1 = b := hn ▸ fr.byteAt_storeAt_self b (by omega)
  unfold stepSof2
  rw [← hn]
  split
  next hb =>
    exact .held .frameType fr.target
      ((Framer.inv_iff_of_frameType rfl).mpr ⟨by simp [hn], hb0.trans h0, hb1.trans hb⟩)
  next =>
    split
    next => exact .padding hs
    next => exact .givenUp

theorem stepFrameType_effect {fr : Framer} (b : Byte) (h : fr.Inv) (hs : fr.state = .frameType) :
    ByteEffect fr b (stepFrameType fr b) := by
  obtain ⟨hn, h0, h1⟩ := (Framer.inv_iff_of_frameType hs).mp h
  have hb0 : (fr.storeAt fr.n b).byteAt 0 = fr.byteAt 0 := Framer.byteAt_storeAt_of_lt b (by omega)
  have hb1 : (fr.storeAt fr.n b).byteAt 1 = fr.byteAt 1 := Framer.byteAt_storeAt_of_lt b (by omega)
  have hb2 : (fr.storeAt fr.n b).byteAt 2 = b := hn ▸ fr.byteAt_storeAt_self b (by omega)
  unfold stepFrameType
  rw [← hn]
  dsimp only
  split
  next ht =>
    exact .held .dataHeader fr.target ((Framer.inv_iff_of_dataHeader rfl).mpr
      ⟨by simp [hn], ⟨hb0.trans h0, hb1.trans h1⟩, (congrArg frameTypeOf hb2).trans ht⟩)
  next =>
    split
    next hlink =>
      refine .held .store (linkSize + 1) ((Framer.inv_iff_of_store rfl).mpr
        ⟨⟨by simp [hn, linkSize], hb0.trans h0, hb1.trans h1⟩, .inr ⟨?_, by simp [hn], rfl⟩⟩)
      exact (congrArg (isLinkType ∘ frameTypeOf) hb2).trans hlink
    next => exact .givenUp

theorem stepDataHeader_effect {fr : Framer} (b : Byte) (h : fr.Inv) (hs : fr.state = .dataHeader) :
    ByteEffect fr b (stepDataHeader fr b) := by
  obtain ⟨⟨h3, h5⟩, ⟨h0, h1⟩, ht⟩ := (Framer.inv_iff_of_dataHeader hs).mp h
  have hkeep {i} (hi : i < fr.n) := Framer.byteAt_storeAt_of_lt b hi
  have hsof : (fr.storeAt fr.n b).byteAt 0 = 0x55 ∧ (fr.storeAt fr.n b).byteAt 1 = 0x00 :=
    ⟨(hkeep (by omega)).trans h0, (hkeep (by omega)).trans h1⟩
  have htype : frameTypeOf ((fr.storeAt fr.n b).byteAt 2) = typeData := by rwa [hkeep (by omega)]
  unfold stepDataHeader
  dsimp only
  split
  next hn =>
    exact .held fr.state fr.target ((Framer.inv_iff_of_dataHeader (fr := fr.storeAt fr.n b) hs).mpr
      ⟨⟨Nat.le_succ_of_le h3, Nat.le_of_lt_succ hn⟩, hsof, htype⟩)
  next hn =>
    rw [Framer.storeAt_n] at hn
    split
    next => exact .givenUp
    next hcrc =>
      refine .held .store _ ((Framer.inv_iff_of_store rfl).mpr
        ⟨⟨?_, hsof⟩, .inl ⟨htype, not_lt.mp hn, rfl, not_not.mp hcrc⟩⟩)
      simp only [Framer.storeAt_n]
      omega

theorem stepStore_effect (crc : List Byte → BitVec 32) {fr : Framer} (b : Byte) (h : fr.Inv) (hs : fr.state = .store) :
    ByteEffect fr b (stepStore crc fr b) := by
  obtain ⟨⟨hlt, h0, h1⟩, hpassed⟩ := (Framer.inv_iff_of_store hs).mp h
  have hkeep {i} (hi : i < fr.n) := Framer.byteAt_storeAt_of_lt b hi
  unfold stepStore
  dsimp only
  split
  next hn =>
    refine .held fr.state fr.target ((Framer.inv_iff_of_store (fr := fr.storeAt fr.n b) hs).mpr
      ⟨⟨hn, (hkeep (by omega)).trans h0, (hkeep (by omega)).trans h1⟩, ?_⟩)
    rcases hpassed with ⟨ht, h6, htarget, hcrc⟩ | ⟨hlink, h3, htarget⟩
    · rw [hkeep (by omega), hkeep (by omega), hkeep (by omega)]
      exact .inl ⟨ht, Nat.le_succ_of_le h6, htarget, hcrc⟩
    · rw [hkeep (by omega)]
      exact .inr ⟨hlink, Nat.le_succ_of_le h3, htarget⟩
  next hn =>
    rw [Framer.storeAt_n, Framer.storeAt_target] at hn
    split
    next => exact .givenUp
    next =>
      split
      next => exact .givenUp
      next => exact .delivered hs (by omega)

/-- From a framer that meets its invariant, every byte has one of the effects of `ByteEffect`. -/
theorem frStep_effect (crc : List Byte → BitVec 32) {fr : Framer} (b : Byte) (h : fr.Inv) :
    ByteEffect fr b (frStep crc fr b) := by
  unfold frStep
  split
  next hs => exact stepSof1_effect b h hs
  next hs => exact stepSof2_effect b h hs
  next hs => exact stepFrameType_effect b h hs
  next hs => exact stepDataHeader_effect b h hs
  next hs => exact stepStore_effect crc b h hs

/-- The invariant does not look at the synchronisation flag or the counters. -/
theorem Framer.inv_frError {fr : Framer} : (frError fr).1.Inv ↔ fr.Inv := by
  unfold frError
  split <;> exact Iff.rfl

theorem ByteEffect.keeps_inv {fr : Framer} {b : Byte} {r : ScanStep} (he : ByteEffect fr b r) (h : fr.Inv) :
    r.framer.Inv := by
  cases he with
  | skipped hs => exact Framer.inv_frError.mpr h
  | padding hs => exact h
  | held st target hinv => exact hinv
  | givenUp => exact (Framer.inv_iff_of_sof1 rfl).mpr rfl
  | delivered hs hn => exact (Framer.inv_iff_of_sof2 rfl).mpr ⟨rfl, Framer.byteAt_setByte_self _ _ (by omega)⟩

/-- One byte keeps the framer's invariant. -/
theorem frStep_keeps_inv (crc : List Byte → BitVec 32) {fr : Framer} (b : Byte) (h : fr.Inv) :
    (frStep crc fr b).framer.Inv := (frStep_effect crc b h).keeps_inv h

/-- What every byte keeps, the replay loop keeps. -/
theorem scan_keeps {P : Framer → Prop} {crc : List Byte → BitVec 32}
    (hstep : ∀ fr b, P fr → P (frStep crc fr b).framer) (k : Nat) :
    ∀ (fr : Framer) (q : List Byte), P fr → P (scan crc k fr q).framer := by
  induction k with
  | zero => intro fr q h; cases q <;> exact h
  | succ k ih =>
    intro fr q h
    cases q with
    | nil => exact h
    | cons b q => exact ih _ _ (hstep fr b h)

theorem exec_keeps_framerInv {i : Instr} {s t : State} (hs : s.framer.Inv) (h : exec i s = .next t) :
    t.framer.Inv := by
  cases exec_unitEffect h with
  | unchanged hfr | transportSet hfr | timeSyncReset hfr | timeSyncFed _ _ _ _ hfr => rwa [hfr]
  | framerReset hfr => rw [hfr]; exact (Framer.inv_iff_of_sof1 rfl).mpr rfl
  | framerFed data hfr =>
    rw [hfr]
    exact scan_keeps (P := Framer.Inv) (fun _ b h => frStep_keeps_inv _ b h) _ _ data hs

/-- Settles O30: the framer is only reset or fed, and every byte fed keeps its invariant. -/
theorem framerInvariantKept : Obligations.FramerInvariantKept := fun _ _ =>
  step_keeps (P := fun s => s.framer.Inv) (fun hu hs => by rwa [hu.2.1]) (fun _ _ => Framer.inv_reset)
    exec_keeps_framerInv

/-- Settles O58: the reset values meet each unit's invariant, and the parameters of the vectors are legal. -/
theorem resetMeetsTheInvariant : Obligations.ResetMeetsTheInvariant := by
  have hreset (p : Params) (hp : p.Legal) : (State.resetWith p).Inv :=
    ⟨hp, Framer.inv_reset, Transport.inv_reset, TimeSync.inv_reset hp⟩
  exact ⟨hreset, hreset Params.vectors (by decide)⟩

/-! ## The account of the wire bytes -/

/-- The account of R173 over a part of the scanner's loop that takes `taken` bytes to process and leaves `left` of them
or of those held before to be processed again: from `fr` to `fr'`, each byte is ignored, belongs to a delivered frame,
or is still held. -/
def Accounts (fr : Framer) (taken : Nat) (events : List Event) (fr' : Framer) (left : Nat) : Prop :=
  fr'.totalBytes = fr.totalBytes ∧ ∃ ignored : Nat,
    fr'.ignoredBytes = fr.ignoredBytes + BitVec.ofNat 64 ignored ∧
    taken + fr.n = ignored + (events.map eventBytes).sum + fr'.n + left

theorem Accounts.refl (fr : Framer) (taken : Nat) : Accounts fr taken [] fr taken :=
  ⟨rfl, 0, (BitVec.add_zero _).symm, by simp; omega⟩

/-- Accounts of consecutive parts add up; the second takes what the first left and `q` bytes more. -/
theorem Accounts.trans {fr fr1 fr2 : Framer} {taken left left' : Nat} {events events' : List Event} (q : Nat)
    (h1 : Accounts fr taken events fr1 left) (h2 : Accounts fr1 (left + q) events' fr2 left') :
    Accounts fr (taken + q) (events ++ events') fr2 left' := by
  obtain ⟨htotal1, ignored1, hignored1, hsum1⟩ := h1
  obtain ⟨htotal2, ignored2, hignored2, hsum2⟩ := h2
  refine ⟨htotal2.trans htotal1, ignored1 + ignored2, ?_, ?_⟩
  · rw [hignored2, hignored1, BitVec.ofNat_add, BitVec.add_assoc]
  · rw [List.map_append, List.sum_append]
    omega

/-- A framing error stands for no wire byte. -/
theorem sum_eventBytes_frError (fr : Framer) : ((frError fr).2.map eventBytes).sum = 0 := by
  unfold frError
  split <;> rfl

theorem Framer.slice_length {fr : Framer} {i len : Nat} (h : i + len ≤ 269) : (fr.slice i len).length = len := by
  simp only [Framer.slice, List.length_take, List.length_drop, Vector.length_toList]
  omega

/-- Giving up ignores the first byte held and puts every other back (R175). -/
theorem accounts_frResync {fr : Framer} (h1 : 1 ≤ fr.n) (h2 : fr.n ≤ 269) :
    Accounts fr 0 (frResync fr).events (frResync fr).framer (frResync fr).replay.length := by
  refine ⟨frError_totalBytes fr, 1, congrArg (· + 1) (frError_ignoredBytes fr), ?_⟩
  rw [frResync_replay, Framer.slice_length (by omega), frResync_n]
  change _ = _ + ((frError fr).2.map eventBytes).sum + _ + _
  rw [sum_eventBytes_frError]
  omega

/-- Holding a byte stores it over no counter: it is taken, and one more is held. -/
theorem accounts_storeAt (fr : Framer) (b : Byte) : Accounts fr 1 [] (fr.storeAt fr.n b) 0 :=
  ⟨rfl, 0, (BitVec.add_zero _).symm, by simp; omega⟩

/-- The event of a complete candidate stands for its bytes but the EOF (R174), for the two lengths a candidate in
`STORE` can have. -/
theorem eventBytes_frameEvent {fr : Framer}
    (h : (frameTypeOf (fr.byteAt 2) = typeData ∧ 14 ≤ fr.target ∧ fr.target ≤ 269) ∨
      (frameTypeOf (fr.byteAt 2) ≠ typeData ∧ fr.target = linkSize + 1)) :
    eventBytes (frameEvent fr) = fr.target - 1 := by
  unfold frameEvent
  rcases h with ⟨ht, h14, h269⟩ | ⟨ht, hlink⟩
  · rw [if_pos ht, eventBytes, Framer.slice_length (by omega)]
    omega
  · rw [if_neg ht, hlink]
    rfl

/-- The lengths a candidate in `STORE` can have, by the type of its frame (R38). -/
theorem Framer.Inv.target_of_store {fr : Framer} (h : fr.Inv) (hs : fr.state = .store) :
    (frameTypeOf (fr.byteAt 2) = typeData ∧ 14 ≤ fr.target ∧ fr.target ≤ 269) ∨
      (frameTypeOf (fr.byteAt 2) ≠ typeData ∧ fr.target = linkSize + 1) := by
  have hlen := (fr.byteAt 4).isLt
  obtain ⟨-, ⟨ht, -, htarget, -⟩ | ⟨hlink, -, htarget⟩⟩ := (Framer.inv_iff_of_store hs).mp h
  · exact .inl ⟨ht, by omega, by omega⟩
  · refine .inr ⟨fun ht => ?_, htarget⟩
    rw [ht] at hlink
    exact absurd hlink (by decide)

/-- Delivering a complete candidate accounts for it: the frame's bytes, and the EOF held as the next SOF1 (R174). -/
theorem accounts_frDispatch {fr : Framer} (hn : fr.n = fr.target) (h1 : 1 ≤ fr.target)
    (h : eventBytes (frameEvent fr) = fr.target - 1) :
    Accounts fr 0 (frDispatch fr).events (frDispatch fr).framer 0 := by
  refine ⟨rfl, 0, (BitVec.add_zero _).symm, ?_⟩
  simp only [frDispatch, List.map_cons, List.map_nil, List.sum_cons, List.sum_nil, h]
  omega

/-- Every effect a byte can have accounts for it. -/
theorem ByteEffect.accounts {fr : Framer} {b : Byte} {r : ScanStep} (he : ByteEffect fr b r) (h : fr.Inv) :
    Accounts fr 1 r.events r.framer r.replay.length := by
  have hlt := h.n_lt
  cases he with
  | skipped hs =>
    refine ⟨frError_totalBytes fr, 1, congrArg (· + 1) (frError_ignoredBytes fr), ?_⟩
    simp [sum_eventBytes_frError]
  | padding hs => exact ⟨rfl, 1, rfl, by simp [quiet]⟩
  | held st target hinv => exact accounts_storeAt fr b
  | givenUp => exact (accounts_storeAt fr b).trans 0 (accounts_frResync (by simp) (by simpa using hlt))
  | delivered hs hn =>
    have hn3 : 2 < fr.n := by
      obtain ⟨-, ⟨-, h6, -⟩ | ⟨-, h3, -⟩⟩ := (Framer.inv_iff_of_store hs).mp h <;> omega
    have htarget := h.target_of_store hs
    rw [← Framer.byteAt_storeAt_of_lt b hn3] at htarget
    have hbytes := eventBytes_frameEvent (fr := fr.storeAt fr.n b) htarget
    exact (accounts_storeAt fr b).trans 0 (accounts_frDispatch hn (by simp only [Framer.storeAt_target]; omega) hbytes)

/-- The replay loop accounts for every byte pending and held (R173). -/
theorem scan_accounts (crc : List Byte → BitVec 32) (k : Nat) :
    ∀ (fr : Framer) (q : List Byte), fr.Inv →
      Accounts fr q.length (scan crc k fr q).events (scan crc k fr q).framer (scan crc k fr q).pending.length := by
  induction k with
  | zero => intro fr q h; cases q <;> exact Accounts.refl fr _
  | succ k ih =>
    intro fr q h
    cases q with
    | nil => exact Accounts.refl fr 0
    | cons b q =>
      have hstep := (frStep_effect crc b h).accounts h
      have hrest := ih _ ((frStep crc fr b).replay ++ q) (frStep_keeps_inv crc b h)
      rw [List.length_append] at hrest
      rw [List.length_cons, Nat.add_comm]
      exact hstep.trans q.length hrest

/-- The scan of an `FR_RECV` ends with nothing pending. -/
theorem recvScan_pending (s : State) (data : List Byte) : (recvScan s data).pending = [] := scan_drains _ _ data

/-- The account of a whole `FR_RECV`: of the bytes received and held before, none is left to process. -/
theorem recvScan_accounts {s : State} (data : List Byte) (h : s.framer.Inv) :
    (recvScan s data).framer.totalBytes = s.framer.totalBytes + BitVec.ofNat 64 data.length ∧ ∃ ignored : Nat,
      (recvScan s data).framer.ignoredBytes = s.framer.ignoredBytes + BitVec.ofNat 64 ignored ∧
      data.length + s.framer.n =
        ignored + ((recvScan s data).events.map eventBytes).sum + (recvScan s data).framer.n := by
  have hdrained := recvScan_pending s data
  unfold recvScan at hdrained ⊢
  obtain ⟨htotal, ignored, hignored, hsum⟩ := scan_accounts (frameCrc s.params.frameCrc) (scanBound data.length)
    { s.framer with totalBytes := s.framer.totalBytes + BitVec.ofNat 64 data.length } data h
  rw [hdrained, List.length_nil, Nat.add_zero] at hsum
  exact ⟨htotal, ignored, hignored, hsum⟩

/-- Settles O32: the account of the loop, which ends with nothing pending. -/
theorem everyWireByteAccountedFor : Obligations.EveryWireByteAccountedFor := by
  intro s data t r hinv h hr
  obtain rfl := exec_frRecv_iff.mp h
  rw [afterScan_responses] at hr
  obtain rfl : okResponse [] [] (recvScan s data).events = r := List.singleton_injective (List.append_cancel_left hr)
  rw [afterScan_framer, okResponse_events]
  exact recvScan_accounts data hinv

/-! ## Two framers that differ only beyond the bytes held -/

/-- The relation of R36 with the other framer's buffer named, so that it can be eliminated. -/
theorem Framer.agreesBelowN_iff {fr fr' : Framer} : fr.AgreesBelowN fr' ↔
    ∃ buf, fr' = { fr with buf := buf } ∧ ∀ i, i < fr.n → fr'.byteAt i = fr.byteAt i :=
  ⟨fun ⟨heq, hbytes⟩ => ⟨_, heq, hbytes⟩, by rintro ⟨buf, rfl, hbytes⟩; exact ⟨rfl, hbytes⟩⟩

theorem Framer.AgreesBelowN.refl (fr : Framer) : fr.AgreesBelowN fr := ⟨rfl, fun _ _ => rfl⟩

section
variable {fr fr' : Framer} (h : fr.AgreesBelowN fr')
include h

theorem Framer.AgreesBelowN.state_eq : fr'.state = fr.state := by rw [h.1]

theorem Framer.AgreesBelowN.n_eq : fr'.n = fr.n := by rw [h.1]

theorem Framer.AgreesBelowN.target_eq : fr'.target = fr.target := by rw [h.1]

theorem Framer.AgreesBelowN.byteAt_eq {i : Nat} (hi : i < fr.n) : fr'.byteAt i = fr.byteAt i := h.2 i hi

theorem Framer.AgreesBelowN.slice_eq {i len : Nat} (hi : i + len ≤ fr.n) : fr'.slice i len = fr.slice i len := by
  refine List.ext_getElem (by simp [Framer.slice]) fun j hj _ => ?_
  simp only [Framer.slice, List.length_take, List.length_drop, Vector.length_toList] at hj
  have hbyte := h.byteAt_eq (i := i + j) (by omega)
  have hlt : i + j < 269 := by omega
  simpa [Framer.slice, Framer.byteAt, Vector.getD, hlt] using hbyte

theorem Framer.AgreesBelowN.setState (st : ParseState) :
    Framer.AgreesBelowN { fr with state := st } { fr' with state := st } := by
  obtain ⟨buf, rfl, hbytes⟩ := Framer.agreesBelowN_iff.mp h
  exact ⟨rfl, hbytes⟩

theorem Framer.AgreesBelowN.setParse (st : ParseState) (target : Nat) :
    Framer.AgreesBelowN { fr with target := target, state := st } { fr' with target := target, state := st } := by
  obtain ⟨buf, rfl, hbytes⟩ := Framer.agreesBelowN_iff.mp h
  exact ⟨rfl, hbytes⟩

theorem Framer.AgreesBelowN.setTotalBytes (v : Word64) :
    Framer.AgreesBelowN { fr with totalBytes := v } { fr' with totalBytes := v } := by
  obtain ⟨buf, rfl, hbytes⟩ := Framer.agreesBelowN_iff.mp h
  exact ⟨rfl, hbytes⟩

theorem Framer.AgreesBelowN.ignoreByte : fr.ignoreByte.AgreesBelowN fr'.ignoreByte := by
  obtain ⟨buf, rfl, hbytes⟩ := Framer.agreesBelowN_iff.mp h
  exact ⟨rfl, hbytes⟩

/-- Storing the same byte at or below the end of the bytes held keeps the agreement, and covers that byte too. -/
theorem Framer.AgreesBelowN.storeAt {i : Nat} (b : Byte) (hi : i ≤ fr.n) :
    (fr.storeAt i b).AgreesBelowN (fr'.storeAt i b) := by
  obtain ⟨buf, rfl, hbytes⟩ := Framer.agreesBelowN_iff.mp h
  refine ⟨rfl, fun j hj => ?_⟩
  rw [Framer.storeAt_n] at hj
  by_cases hji : j = i
  · subst hji
    by_cases hj269 : j < 269
    · rw [Framer.byteAt_storeAt_self _ b hj269, Framer.byteAt_storeAt_self _ b hj269]
    · simp [Framer.byteAt, Vector.getD, hj269]
  · rw [Framer.byteAt_storeAt_ne _ b hji, Framer.byteAt_storeAt_ne _ b hji]
    exact hbytes j (by omega)

theorem Framer.AgreesBelowN.frError :
    (frError fr).1.AgreesBelowN (frError fr').1 ∧ (Machine.frError fr').2 = (Machine.frError fr).2 := by
  obtain ⟨buf, rfl, hbytes⟩ := Framer.agreesBelowN_iff.mp h
  unfold Machine.frError
  dsimp only
  split <;> exact ⟨⟨rfl, hbytes⟩, rfl⟩

end

/-- Two results of one scanner rule that show no difference but buffer bytes beyond those held. -/
def ScanStep.Agrees (r r' : ScanStep) : Prop :=
  r.framer.AgreesBelowN r'.framer ∧ r'.events = r.events ∧ r'.replay = r.replay

theorem agrees_quiet {fr fr' : Framer} (h : fr.AgreesBelowN fr') : (quiet fr).Agrees (quiet fr') := ⟨h, rfl, rfl⟩

/-- Giving up replays held bytes only, and holds none. -/
theorem agrees_frResync {fr fr' : Framer} (h : fr.AgreesBelowN fr') (hn : 1 ≤ fr.n) :
    (frResync fr).Agrees (frResync fr') := by
  obtain ⟨herror, hevents⟩ := h.frError
  obtain ⟨buf, heq, -⟩ := Framer.agreesBelowN_iff.mp herror
  refine ⟨⟨?_, fun i hi => absurd hi (Nat.not_lt_zero i)⟩, hevents, ?_⟩
  · simp only [frResync, heq]
    rfl
  · rw [frResync_replay, frResync_replay, h.n_eq]
    exact h.slice_eq (by omega)

/-- The event of a complete candidate is read from the bytes held. -/
theorem frameEvent_eq_of_agrees {fr fr' : Framer} (h : fr.AgreesBelowN fr') (h9 : 9 ≤ fr.target)
    (hn : fr.target ≤ fr.n) : frameEvent fr' = frameEvent fr := by
  simp only [frameEvent, h.target_eq]
  rw [h.byteAt_eq (by omega), h.byteAt_eq (by omega), h.byteAt_eq (by omega), h.byteAt_eq (by omega),
    h.slice_eq (by omega)]

theorem crcSpan_eq_of_agrees {fr fr' : Framer} (h : fr.AgreesBelowN fr') (h9 : 9 ≤ fr.target)
    (hn : fr.target ≤ fr.n) : crcSpan fr' = crcSpan fr := by
  rw [crcSpan, h.target_eq]
  exact h.slice_eq (by omega)

theorem receivedCrc_eq_of_agrees {fr fr' : Framer} (h : fr.AgreesBelowN fr') (h9 : 9 ≤ fr.target)
    (hn : fr.target ≤ fr.n) : receivedCrc fr' = receivedCrc fr := by
  simp only [receivedCrc, h.target_eq]
  rw [h.byteAt_eq (by omega), h.byteAt_eq (by omega), h.byteAt_eq (by omega), h.byteAt_eq (by omega)]

theorem agrees_frDispatch {fr fr' : Framer} (h : fr.AgreesBelowN fr') (h9 : 9 ≤ fr.target)
    (hn : fr.target ≤ fr.n) : (frDispatch fr).Agrees (frDispatch fr') := by
  have hevent := frameEvent_eq_of_agrees h h9 hn
  refine ⟨?_, congrArg ([·]) hevent, rfl⟩
  obtain ⟨buf, rfl, -⟩ := Framer.agreesBelowN_iff.mp h
  refine ⟨rfl, fun i hi => ?_⟩
  obtain rfl : i = 0 := Nat.lt_one_iff.mp hi
  exact (Framer.byteAt_setByte_self _ sof1Byte (by omega)).trans (Framer.byteAt_setByte_self _ sof1Byte (by omega)).symm

/-! ## Every rule of the scanner reads only bytes held -/

/-- Where the same branch is taken, agreeing branches agree. -/
theorem ScanStep.Agrees.ite {p p' : Prop} [Decidable p] [Decidable p'] {r1 r1' r2 r2' : ScanStep} (hp : p' ↔ p)
    (h1 : p → r1.Agrees r1') (h2 : ¬ p → r2.Agrees r2') :
    (if p then r1 else r2).Agrees (if p' then r1' else r2') := by
  by_cases h : p
  · rw [if_pos h, if_pos (hp.mpr h)]
    exact h1 h
  · rw [if_neg h, if_neg (mt hp.mp h)]
    exact h2 h

theorem stepSof1_agrees {fr fr' : Framer} (b : Byte) (h : fr.AgreesBelowN fr') :
    (stepSof1 fr b).Agrees (stepSof1 fr' b) := by
  refine .ite Iff.rfl (fun _ => agrees_quiet ((h.storeAt b (Nat.zero_le _)).setState .sof2)) fun _ => ?_
  obtain ⟨herror, hevents⟩ := h.frError
  exact ⟨herror.ignoreByte, hevents, rfl⟩

theorem stepSof2_agrees {fr fr' : Framer} (b : Byte) (h : fr.AgreesBelowN fr') (hn : fr.n = 1) :
    (stepSof2 fr b).Agrees (stepSof2 fr' b) := by
  have hstored := h.storeAt b (i := 1) hn.ge
  exact .ite Iff.rfl (fun _ => agrees_quiet (hstored.setState .frameType)) fun _ =>
    .ite Iff.rfl (fun _ => agrees_quiet h.ignoreByte) fun _ => agrees_frResync hstored (by simp)

theorem stepFrameType_agrees {fr fr' : Framer} (b : Byte) (h : fr.AgreesBelowN fr') (hn : fr.n = 2) :
    (stepFrameType fr b).Agrees (stepFrameType fr' b) := by
  have hstored := h.storeAt b (i := 2) hn.ge
  exact .ite Iff.rfl (fun _ => agrees_quiet (hstored.setState .dataHeader)) fun _ =>
    .ite Iff.rfl (fun _ => agrees_quiet (hstored.setParse .store (linkSize + 1))) fun _ =>
      agrees_frResync hstored (by simp)

/-- The length CRC is checked only with its two bytes held. -/
theorem stepDataHeader_agrees {fr fr' : Framer} (b : Byte) (h : fr.AgreesBelowN fr') :
    (stepDataHeader fr b).Agrees (stepDataHeader fr' b) := by
  have hstored := h.storeAt b (i := fr.n) le_rfl
  unfold stepDataHeader
  rw [h.n_eq]
  refine .ite Iff.rfl (fun _ => agrees_quiet hstored) fun hn => ?_
  have h6 : 6 ≤ (fr.storeAt fr.n b).n := not_lt.mp hn
  rw [hstored.byteAt_eq (i := 4) (by omega), hstored.byteAt_eq (i := 5) (by omega)]
  exact .ite Iff.rfl (fun _ => agrees_frResync hstored (by simp)) fun _ =>
    agrees_quiet (hstored.setParse .store _)

/-- The EOF and the frame CRC are checked only with the whole candidate held. -/
theorem stepStore_agrees (crc : List Byte → BitVec 32) {fr fr' : Framer} (b : Byte) (h : fr.AgreesBelowN fr')
    (h9 : 9 ≤ fr.target) : (stepStore crc fr b).Agrees (stepStore crc fr' b) := by
  have hstored := h.storeAt b (i := fr.n) le_rfl
  unfold stepStore
  rw [h.n_eq]
  refine .ite (by rw [hstored.target_eq]; exact Iff.rfl) (fun _ => agrees_quiet hstored) fun hn => ?_
  have hfull : fr.target ≤ (fr.storeAt fr.n b).n := not_lt.mp hn
  rw [hstored.target_eq, Framer.storeAt_target, hstored.byteAt_eq (by omega), crcSpan_eq_of_agrees hstored h9 hfull,
    receivedCrc_eq_of_agrees hstored h9 hfull]
  exact .ite Iff.rfl (fun _ => agrees_frResync hstored (by simp)) fun _ =>
    .ite Iff.rfl (fun _ => agrees_frResync hstored (by simp)) fun _ => agrees_frDispatch hstored h9 hfull

/-- One byte does the same to two framers that agree on the bytes held. -/
theorem frStep_agrees (crc : List Byte → BitVec 32) {fr fr' : Framer} (b : Byte) (hinv : fr.Inv)
    (h : fr.AgreesBelowN fr') : (frStep crc fr b).Agrees (frStep crc fr' b) := by
  unfold frStep
  rw [h.state_eq]
  split
  next => exact stepSof1_agrees b h
  next hs => exact stepSof2_agrees b h ((Framer.inv_iff_of_sof2 hs).mp hinv).1
  next hs => exact stepFrameType_agrees b h ((Framer.inv_iff_of_frameType hs).mp hinv).1
  next => exact stepDataHeader_agrees b h
  next hs =>
    have h9 : 9 ≤ fr.target := by
      rcases hinv.target_of_store hs with ⟨-, h14, -⟩ | ⟨-, hlink⟩
      · omega
      · exact hlink.ge
    exact stepStore_agrees crc b h h9

/-- The replay loop does the same to two framers that agree on the bytes held. -/
theorem scan_agrees (crc : List Byte → BitVec 32) (k : Nat) :
    ∀ (fr fr' : Framer) (q : List Byte), fr.Inv → fr.AgreesBelowN fr' →
      (scan crc k fr q).framer.AgreesBelowN (scan crc k fr' q).framer ∧
        (scan crc k fr' q).events = (scan crc k fr q).events := by
  induction k with
  | zero => intro fr fr' q _ h; cases q <;> exact ⟨h, rfl⟩
  | succ k ih =>
    intro fr fr' q hinv h
    cases q with
    | nil => exact ⟨h, rfl⟩
    | cons b q =>
      obtain ⟨hstep, hevents, hreplay⟩ := frStep_agrees crc b hinv h
      obtain ⟨hrest, hrestEvents⟩ := ih _ _ ((frStep crc fr b).replay ++ q) (frStep_keeps_inv crc b hinv) hstep
      simp only [scan, hreplay, hevents, hrestEvents]
      exact ⟨hrest, trivial⟩

/-! ## Every command and every step read only bytes held -/

/-- The invariant does not look at the count of received bytes. -/
theorem Framer.Inv.setTotalBytes {fr : Framer} (h : fr.Inv) (v : Word64) : Framer.Inv { fr with totalBytes := v } := h

/-- The commands whose meaning depends on the framer or writes it. -/
def usesFramer : Instr → Bool
  | .frReset | .frRecv _ | .frStatus => true
  | _ => false

/-- An outcome with its next state changed. -/
def onNext (f : State → State) : Result → Result
  | .next t => .next (f t)
  | .fault r => .fault r
  | .refused r => .refused r

/-- Every other command runs the same over any framer and carries it along. -/
theorem exec_of_not_usesFramer {i : Instr} (hi : usesFramer i = false) (s : State) (fr : Framer) :
    exec i { s with framer := fr } = onNext (fun t => { t with framer := fr }) (exec i s) := by
  cases i with
  | frReset | frRecv | frStatus => cases hi
  | nop | tpEvent | tsReset | tsUpdate | tsTime | tsRead => rfl
  | crc8 | crc16 | crc32 | frConstructData | frConstructLink | tpRegister | tpRegisterDefault | tpSend | tpRecv =>
    simp only [exec, execCrc8, execCrc16, execCrc32, execFrConstructData, execFrConstructLink, execTpRegister,
      execTpRegisterDefault, execTpSend, execTpRecv, apply_ite (onNext _)]
    rfl

/-- The framer such a command leaves is the one it found. -/
theorem exec_agrees_of_not_usesFramer {i : Instr} (hi : usesFramer i = false) {s t : State} {fr : Framer}
    (hfr : s.framer.AgreesBelowN fr) (h : exec i s = .next t) :
    ∃ fr', exec i { s with framer := fr } = .next { t with framer := fr' } ∧ t.framer.AgreesBelowN fr' := by
  have hcarried := exec_of_not_usesFramer hi s
  rw [h] at hcarried
  have hsame : t = { t with framer := s.framer } := Host.Outcome.next.inj (h.symm.trans (hcarried s.framer))
  exact ⟨fr, hcarried fr, congrArg State.framer hsame ▸ hfr⟩

/-- Two scans with the same events leave the same state but for the framer, whatever framer each began with. -/
theorem afterScan_setFramer (s : State) (fr : Framer) {r r' : ScanResult} (h : r'.events = r.events) :
    { afterScan s r with framer := r'.framer } = afterScan { s with framer := fr } r' := by
  simp only [afterScan, h]
  rfl

theorem recvScan_agrees {s : State} {fr : Framer} (data : List Byte) (hinv : s.framer.Inv)
    (hfr : s.framer.AgreesBelowN fr) :
    (recvScan s data).framer.AgreesBelowN (recvScan { s with framer := fr } data).framer ∧
      (recvScan { s with framer := fr } data).events = (recvScan s data).events := by
  have htotal : fr.totalBytes = s.framer.totalBytes := by rw [hfr.1]
  simp only [recvScan, htotal]
  exact scan_agrees _ _ _ _ data (hinv.setTotalBytes _) (hfr.setTotalBytes _)

/-- A command at a state whose framer differs only in bytes beyond those held answers the same, but for such bytes. -/
theorem exec_agrees {i : Instr} {s t : State} {fr : Framer} (hinv : s.framer.Inv) (hfr : s.framer.AgreesBelowN fr)
    (h : exec i s = .next t) :
    ∃ fr', exec i { s with framer := fr } = .next { t with framer := fr' } ∧ t.framer.AgreesBelowN fr' := by
  cases i with
  | frReset =>
    cases h
    exact ⟨{ Framer.reset with buf := fr.buf }, rfl, rfl, fun i hi => absurd hi (Nat.not_lt_zero i)⟩
  | frRecv data =>
    obtain rfl := exec_frRecv_iff.mp h
    obtain ⟨hscan, hevents⟩ := recvScan_agrees data hinv hfr
    rw [afterScan_framer]
    exact ⟨_, exec_frRecv_iff.mpr (afterScan_setFramer s fr hevents), hscan⟩
  | frStatus =>
    cases h
    refine ⟨fr, ?_, hfr⟩
    obtain ⟨buf, rfl, -⟩ := Framer.agreesBelowN_iff.mp hfr
    rfl
  | _ => exact exec_agrees_of_not_usesFramer rfl hfr h

/-- Settles O38, by the four ways a step can go. -/
theorem staleBufferBytesNeverObserved : Obligations.StaleBufferBytesNeverObserved := by
  intro s s' t hinv hs' hfr h
  obtain ⟨fr, hfr', rfl⟩ : ∃ fr, s.framer.AgreesBelowN fr ∧ s' = { s with framer := fr } := ⟨_, hfr, hs'⟩
  rcases step_cases h with ⟨hp, rfl⟩ | ⟨rest, hp, rfl⟩ | ⟨tx, env, rest, i, hp, hd, he⟩ |
    ⟨tx, env, rest, opc, hp, hd, rfl⟩
  · exact ⟨_, step_of_port_nil hp, rfl, rfl, hfr⟩
  · exact ⟨_, step_of_globalReset hp, rfl, rfl, .refl _⟩
  · obtain ⟨fr', he', hagrees⟩ := exec_agrees (s := acceptCommand env rest s) hinv hfr he
    have hstep := step_of_decode_ok (s := { s with framer := fr }) hp hd
    exact ⟨{ t with framer := fr' }, hstep.trans he', rfl, rfl, hagrees⟩
  · refine ⟨respond _ (acceptCommand env rest { s with framer := fr }), ?_, rfl, rfl, hfr⟩
    rcases hd with hd | hd
    · exact step_of_decode_unassigned (s := { s with framer := fr }) hp hd
    · exact step_of_decode_reserved (s := { s with framer := fr }) hp hd

end Sys2Proof.Machine
end

section
/-! PROOFS. The family of spec/20_memory.md: the commands that write no unit. -/

namespace Sys2Proof.Machine

/-- The result goes on from `s` with one more response and nothing else changed: the command wrote no unit (R87). -/
def AnswersOnly (s : State) (o : Result) : Prop := ∃ r, o = .next (answered s r)

theorem complete_answersOnly (res : List Word64) (out : List Byte) (events : List Event) (s : State) :
    AnswersOnly s (complete res out events s) :=
  ⟨_, (complete_eq_next_iff _ _ _ _ _).mpr rfl⟩

theorem raise_answersOnly (st : Status) (nres : Nat) (s : State) : AnswersOnly s (raise st nres s) :=
  ⟨_, (raise_eq_next_iff _ _ _ _).mpr rfl⟩

theorem completeLlError_answersOnly (res : List Word64) (events : List Event) (s : State) :
    AnswersOnly s (completeLlError res events s) :=
  ⟨_, (completeLlError_eq_next_iff _ _ _ _).mpr rfl⟩

/-- A choice between two results that only answer only answers. -/
theorem AnswersOnly.ite {p : Prop} [Decidable p] {s : State} {o o' : Result} (h : AnswersOnly s o)
    (h' : AnswersOnly s o') : AnswersOnly s (if p then o else o') := by
  split
  · exact h
  · exact h'

/-- A command that checks its operands, and otherwise completes at the state given, only answers. -/
theorem checked_answersOnly {p : Prop} [Decidable p] (res : List Word64) (out : List Byte) (events : List Event)
    (st : Status) (nres : Nat) (s : State) :
    AnswersOnly s (if p then complete res out events s else raise st nres s) :=
  (complete_answersOnly res out events s).ite (raise_answersOnly st nres s)

/-- `TP_SEND` only answers: OK or LL_ERROR by the lower layer's code once its operands pass (R226), else
PARAM_INVALID. -/
theorem execTpSend_answersOnly (a : BitVec 8) (seq portData : Word64) (data : List Byte) (s : State) :
    AnswersOnly s (execTpSend a seq portData data s) :=
  ((complete_answersOnly _ _ _ s).ite (completeLlError_answersOnly _ _ s)).ite (raise_answersOnly _ _ s)

/-- Settles O13, command by command: four complete, five check their operands first, and TP_SEND can also end in
LL_ERROR. -/
theorem readOnlyCommandsWriteNothing : Obligations.ReadOnlyCommandsWriteNothing := by
  rintro i s (rfl | ⟨c, d, rfl⟩ | ⟨c, d, rfl⟩ | ⟨c, d, rfl⟩ | rfl | ⟨x, y, d, rfl⟩ | ⟨a, x, rfl⟩ | ⟨a, x, y, d, rfl⟩ |
    rfl | rfl)
  · exact complete_answersOnly _ _ _ s -- NOP
  · exact checked_answersOnly _ _ _ _ _ s -- CRC8
  · exact checked_answersOnly _ _ _ _ _ s -- CRC16
  · exact checked_answersOnly _ _ _ _ _ s -- CRC32
  · exact complete_answersOnly _ _ _ s -- FR_STATUS
  · exact checked_answersOnly _ _ _ _ _ s -- FR_CONSTRUCT_DATA
  · exact checked_answersOnly _ _ _ _ _ s -- FR_CONSTRUCT_LINK
  · exact execTpSend_answersOnly a x y d s
  · exact complete_answersOnly _ _ _ s -- TS_TIME
  · exact complete_answersOnly _ _ _ s -- TS_READ

end Sys2Proof.Machine
end

section
/-! PROOFS. The family of spec/30_encoding.md: the decoder against the encoder and the opcode map, the transaction as
one number, the response each command gives, and the assembler's lines. -/

namespace Sys2Proof

/-! ## The decoder, by its three answers -/

/-- A framed transaction of an assigned opcode with no reserved field set decodes to the command its words build. -/
theorem decode_of_build {tx : Transaction} {row : OpRow} {i : Instr} (hf : tx.framed = true)
    (hrow : opRow? tx.opc = some row) (hclear : row.reservedSet tx = false)
    (hbuild : build tx.opc tx.a tx.args tx.data = some i) : decode tx = .ok i := by
  simp [decode, hf, hrow, hclear, hbuild]

/-- A framed transaction whose opcode has no row is rejected as unassigned (R115). -/
theorem decode_of_opRow_none {tx : Transaction} (hf : tx.framed = true) (hrow : opRow? tx.opc = none) :
    decode tx = .error (.unassignedOpcode tx.opc) := by
  simp [decode, hf, hrow]

/-- A framed transaction that sets a field its row reserves is rejected (R114). -/
theorem decode_of_reservedSet {tx : Transaction} {row : OpRow} (hf : tx.framed = true)
    (hrow : opRow? tx.opc = some row) (hset : row.reservedSet tx = true) :
    decode tx = .error (.reservedField tx.opc) := by
  simp [decode, hf, hrow, hset]

/-! ## Decoding an encoding -/

/-- The per-instruction laws of Laws/PerInstr.lean as one: every encoding is framed and passes the decoder's checks. -/
theorem encode_framing (i : Instr) : Laws.Framing.Statement i := by
  cases i with
  | nop => exact Laws.Framing.nop
  | crc8 c d => exact Laws.Framing.crc8 c d
  | crc16 c d => exact Laws.Framing.crc16 c d
  | crc32 c d => exact Laws.Framing.crc32 c d
  | frReset => exact Laws.Framing.frReset
  | frRecv d => exact Laws.Framing.frRecv d
  | frStatus => exact Laws.Framing.frStatus
  | frConstructData x y d => exact Laws.Framing.frConstructData x y d
  | frConstructLink a x => exact Laws.Framing.frConstructLink a x
  | tpRegister a x y z => exact Laws.Framing.tpRegister a x y z
  | tpRegisterDefault x y => exact Laws.Framing.tpRegisterDefault x y
  | tpSend a x y d => exact Laws.Framing.tpSend a x y d
  | tpEvent a => exact Laws.Framing.tpEvent a
  | tpRecv x d => exact Laws.Framing.tpRecv x d
  | tsReset => exact Laws.Framing.tsReset
  | tsUpdate a b c d => exact Laws.Framing.tsUpdate a b c d
  | tsTime => exact Laws.Framing.tsTime
  | tsRead => exact Laws.Framing.tsRead

/-- From a transaction made of its parts, `build` gets those parts back: `A` and the opcode leave `CW` whole. -/
theorem build_transaction (opc a : BitVec 8) (args : List Word64) (data : List Byte) :
    build (transaction opc a args data).opc (transaction opc a args data).a (transaction opc a args data).args
      (transaction opc a args data).data = build opc a args data := by
  rw [Laws.Framing.opc_transaction, Laws.Framing.a_transaction]
  rfl

/-- The words of an encoding build the command: the operand order of `encode` is that of `build`, row by row of R112. -/
theorem build_encode (i : Instr) :
    build (encode i).opc (encode i).a (encode i).args (encode i).data = some i := by
  cases i <;> exact build_transaction _ _ _ _

/-- Settles O1: the encoding passes the decoder's checks, and its words build the command. -/
theorem decodeOfEncodeIsTheCommand : Obligations.DecodeOfEncodeIsTheCommand := by
  intro i hwf
  obtain ⟨hframed, row, hrow, hclear⟩ := encode_framing i hwf
  exact decode_of_build hframed hrow hclear (build_encode i)

/-- Settles O3, by evaluating the decoder on the five written transactions. -/
theorem writtenCommandWordsDecode : Obligations.WrittenCommandWordsDecode := by
  unfold Obligations.WrittenCommandWordsDecode
  decide

/-! ## A transaction as one number -/

/-- The low digit of a number put together from a digit and a rest. -/
theorem ofNat_toNat_add_mul {w : Nat} (x : BitVec w) (k : Nat) : BitVec.ofNat w (x.toNat + 2 ^ w * k) = x := by
  apply BitVec.eq_of_toNat_eq
  rw [BitVec.toNat_ofNat, Nat.add_mul_mod_self_left, Nat.mod_eq_of_lt x.isLt]

/-- The rest of a number put together from a low part and a rest. -/
theorem add_mul_div_of_lt {a b : Nat} (h : a < b) (k : Nat) : (a + b * k) / b = k := by
  rw [Nat.add_mul_div_left _ _ (Nat.zero_lt_of_lt h), Nat.div_eq_of_lt h, Nat.zero_add]

/-- One word comes off a packed list with whatever stands above it. -/
theorem packWords_cons_add {w : Nat} (x : BitVec w) (xs : List (BitVec w)) (k : Nat) :
    packWords (x :: xs) + 2 ^ (w * (x :: xs).length) * k =
      x.toNat + 2 ^ w * (packWords xs + 2 ^ (w * xs.length) * k) := by
  rw [packWords, List.length_cons, Nat.mul_succ, Nat.pow_add]
  ring

/-- A packed list needs no more bits than its words have. -/
theorem packWords_lt {w : Nat} (xs : List (BitVec w)) : packWords xs < 2 ^ (w * xs.length) := by
  induction xs with
  | nil => exact Nat.zero_lt_one
  | cons x xs ih =>
    calc packWords (x :: xs) < 2 ^ w + 2 ^ w * packWords xs := Nat.add_lt_add_right x.isLt _
      _ = 2 ^ w * (packWords xs + 1) := by ring
      _ ≤ 2 ^ w * 2 ^ (w * xs.length) := Nat.mul_le_mul_left _ ih
      _ = 2 ^ (w * (x :: xs).length) := by rw [List.length_cons, Nat.mul_succ, Nat.pow_add, Nat.mul_comm]

/-- Unpacking gives the packed words back, whatever stands above them. -/
theorem unpackWords_packWords_add {w : Nat} (xs : List (BitVec w)) (k : Nat) :
    unpackWords w xs.length (packWords xs + 2 ^ (w * xs.length) * k) = xs := by
  induction xs with
  | nil => rfl
  | cons x xs ih =>
    rw [packWords_cons_add, List.length_cons, unpackWords, ofNat_toNat_add_mul, add_mul_div_of_lt x.isLt, ih]

theorem unpackWords_packWords {w : Nat} (xs : List (BitVec w)) : unpackWords w xs.length (packWords xs) = xs := by
  simpa using unpackWords_packWords_add xs 0

/-- A framed transaction has the argument words and the payload bytes its command word asks for. -/
theorem Transaction.framed_iff (tx : Transaction) :
    tx.framed = true ↔ tx.args.length = nargOf tx.opc ∧ tx.data.length = tx.len := by
  simp [Transaction.framed]

/-- `ofBits` on a number whose low 32 bits are `cw`. -/
theorem Transaction.ofBits_of_low {v : Nat} {tx : Transaction} (hcw : BitVec.ofNat 32 v = tx.cw) :
    Transaction.ofBits v =
      { cw := tx.cw
        args := unpackWords 64 (nargOf tx.opc) (v / 2 ^ 32)
        data := unpackWords 8 tx.len (v / 2 ^ (32 + 64 * nargOf tx.opc)) } := by
  simp only [Transaction.ofBits, hcw]
  rfl

/-- The number of a framed transaction is read back as the transaction: from it come first the command word, which tells
the two counts, then the words of each. -/
theorem Transaction.ofBits_toBits {tx : Transaction} (hf : tx.framed = true) : Transaction.ofBits tx.toBits = tx := by
  obtain ⟨hnarg, hlen⟩ := tx.framed_iff.mp hf
  have hcw : BitVec.ofNat 32 tx.toBits = tx.cw := ofNat_toNat_add_mul _ _
  have hargs : tx.toBits / 2 ^ 32 = packWords tx.args + 2 ^ (64 * tx.args.length) * packWords tx.data :=
    add_mul_div_of_lt tx.cw.isLt _
  have hdata : tx.toBits / 2 ^ (32 + 64 * tx.args.length) = packWords tx.data := by
    rw [Nat.pow_add, ← Nat.div_div_eq_div_mul, hargs, add_mul_div_of_lt (packWords_lt _)]
  rw [ofBits_of_low hcw, ← hnarg, ← hlen, hargs, hdata, unpackWords_packWords_add, unpackWords_packWords]

/-- Settles O2: the number is read back as the transaction, which O1 decodes. -/
theorem transactionNumberRoundTrip : Obligations.TransactionNumberRoundTrip := by
  refine ⟨fun _ => Transaction.ofBits_toBits, fun i nbits hwf hbits => ?_⟩
  have hframed : (encode i).framed = true := (encode_framing i hwf).1
  rw [decodeTableWord, Nat.mod_eq_of_lt hbits, Transaction.ofBits_toBits hframed, decodeOfEncodeIsTheCommand i hwf]

/-! ## Commands the decoder rejects with ILLEGAL_COMMAND -/

/-- The five unassigned opcode ranges of R115. -/
def UnassignedRange (opc : BitVec 8) : Prop :=
  (0x01 ≤ opc.toNat ∧ opc.toNat ≤ 0x0F) ∨ (0x13 ≤ opc.toNat ∧ opc.toNat ≤ 0x1F) ∨
    (0x25 ≤ opc.toNat ∧ opc.toNat ≤ 0x2F) ∨ (0x35 ≤ opc.toNat ∧ opc.toNat ≤ 0x3F) ∨ 0x44 ≤ opc.toNat

/-- No row of the opcode map lies in an unassigned range. -/
theorem not_unassignedRange_of_mem_opTable : ∀ r ∈ opTable, ¬ UnassignedRange r.opc := by
  unfold UnassignedRange
  decide

theorem opRow_eq_none_of_unassignedRange {opc : BitVec 8} (h : UnassignedRange opc) : opRow? opc = none := by
  refine List.find?_eq_none.mpr fun r hr heq => not_unassignedRange_of_mem_opTable r hr ?_
  rwa [eq_of_beq heq]

/-- An unassigned opcode takes no argument words (R110), so it is framed by its payload alone. -/
theorem Transaction.framed_of_opRow_none {tx : Transaction} (hrow : opRow? tx.opc = none) (hargs : tx.args = [])
    (hlen : tx.data.length = tx.len) : tx.framed = true :=
  tx.framed_iff.mpr ⟨by rw [hargs, nargOf, hrow]; rfl, hlen⟩

/-- The opcodes of class `Z` and `L` in the order of the statement have a row that reserves `A` (R112). -/
theorem opRow_reservesA :
    ∀ opc ∈ ([0x00, 0x20, 0x22, 0x31, 0x40, 0x41, 0x42, 0x43] ++ [0x10, 0x11, 0x12, 0x21, 0x23, 0x34] :
      List (BitVec 8)), (opRow? opc).any (fun r => r.usage.reservesA) = true := by decide

/-- The opcodes of class `Z` and `A` in the order of the statement have a row that reserves `LEN` (R112). -/
theorem opRow_reservesLen :
    ∀ opc ∈ ([0x00, 0x20, 0x22, 0x31, 0x40, 0x41, 0x42, 0x43] ++ [0x24, 0x30, 0x33] : List (BitVec 8)),
      (opRow? opc).any (fun r => r.usage.reservesLen) = true := by decide

/-- A reserved field is set when `A` or `LEN` is nonzero where the row's class reserves it (R114). -/
theorem OpRow.reservedSet_iff (r : OpRow) (tx : Transaction) :
    r.reservedSet tx = true ↔
      (r.usage.reservesA = true ∧ tx.a ≠ 0) ∨ (r.usage.reservesLen = true ∧ tx.len ≠ 0) := by
  simp [OpRow.reservedSet]

end Sys2Proof

namespace Sys2Proof.Machine

/-- Settles O9: an opcode of the five ranges has no row. -/
theorem unassignedOpcodeIsIllegal : Obligations.UnassignedOpcodeIsIllegal := by
  intro s tx env rest hport hrange hargs hlen
  have hrow : opRow? tx.opc = none := opRow_eq_none_of_unassignedRange hrange
  have hframed : tx.framed = true := Transaction.framed_of_opRow_none hrow hargs hlen
  exact ⟨nresOf tx.opc, step_of_decode_unassigned hport (decode_of_opRow_none hframed hrow)⟩

/-- Settles O10: the row of each listed opcode reserves the field that is set. -/
theorem reservedFieldIsIllegal : Obligations.ReservedFieldIsIllegal := by
  intro s tx env rest hport hframed hset
  obtain ⟨row, hrow, hres⟩ : ∃ row, opRow? tx.opc = some row ∧ row.reservedSet tx = true := by
    rcases hset with ⟨ha, hmem⟩ | ⟨hlen, hmem⟩
    · obtain ⟨row, hrow, hr⟩ := (Option.any_eq_true _ _).mp (opRow_reservesA _ hmem)
      exact ⟨row, hrow, (row.reservedSet_iff tx).mpr (.inl ⟨hr, ha⟩)⟩
    · obtain ⟨row, hrow, hr⟩ := (Option.any_eq_true _ _).mp (opRow_reservesLen _ hmem)
      exact ⟨row, hrow, (row.reservedSet_iff tx).mpr (.inr ⟨hr, hlen⟩)⟩
  exact ⟨nresOf tx.opc, step_of_decode_reserved hport (decode_of_reservedSet hframed hrow hres)⟩

/-! ## Operand ranges -/

theorem inRange_iff (w : Word64) (max : Nat) : inRange w max = true ↔ w.toNat ≤ max := by
  simp [inRange]

theorem portInRange_iff (a : BitVec 8) : portInRange a = true ↔ a.toNat ≤ 31 := by
  simp [portInRange]

theorem linkTypeInRange_iff (a : BitVec 8) : linkTypeInRange a = true ↔ IsLinkType a := by
  simp [linkTypeInRange, linkTypes, IsLinkType]

/-! ## The response of each command -/

/-- `NRES` of a command (R112). -/
def nresOfInstr : Instr → Nat
  | .crc8 _ _ | .crc16 _ _ | .crc32 _ _ | .tpSend _ _ _ _ | .tsUpdate _ _ _ _ | .tsTime => 1
  | .frStatus => 3
  | .tsRead => 4
  | .nop | .frReset | .frRecv _ | .frConstructData _ _ _ | .frConstructLink _ _ | .tpRegister _ _ _ _
  | .tpRegisterDefault _ _ | .tpEvent _ | .tpRecv _ _ | .tsReset => 0

/-- It is what the opcode map says of the command's opcode. -/
theorem nresOf_opc (i : Instr) : nresOf i.opc = nresOfInstr i := by
  cases i <;> exact (congrArg nresOf (Laws.Framing.opc_transaction _ _ _ _)).trans rfl

/-- The two commands whose result is a list of bytes (R117). -/
def IsConstructor (i : Instr) : Prop :=
  (∃ x y d, i = .frConstructData x y d) ∨ ∃ a x, i = .frConstructLink a x

/-- The responses a command can give at a state, by its status: PARAM_INVALID where an operand is out of range, else OK,
or for `TP_SEND` LL_ERROR. -/
inductive Answer (i : Instr) (s : State) : Response → Prop where
  /-- An operand is outside its range (R113). -/
  | paramInvalid (hillegal : ¬ OperandsLegal i) : Answer i s (failedResponse .paramInvalid (nresOfInstr i))
  /-- The command is carried out (R320). -/
  | ok (hlegal : OperandsLegal i) (res : List Word64) (out : List Byte) (events : List Event)
      (hres : res.length = nresOfInstr i) (hout : out ≠ [] → IsConstructor i) :
      Answer i s (okResponse res out events)
  /-- `TP_SEND` is carried out and the lower layer returns a nonzero code (R336). -/
  | llError (hlegal : OperandsLegal i) (res : List Word64) (events : List Event)
      (hres : res.length = nresOfInstr i) (hsend : ∃ a x y d, i = .tpSend a x y d) (hcode : s.env.llStatus ≠ 0) :
      Answer i s { status := .llError, res := res, out := [], events := events }

/-- The result answers the command `i` at `s`: it goes on with one more response, one of those of `Answer`. -/
def Answers (i : Instr) (s : State) (o : Result) : Prop :=
  ∃ t r, o = .next t ∧ t.responses = s.responses ++ [r] ∧ Answer i s r

theorem complete_answers {i : Instr} {s s' : State} {res : List Word64} {out : List Byte} {events : List Event}
    (hlegal : OperandsLegal i) (hres : res.length = nresOfInstr i) (hout : out ≠ [] → IsConstructor i)
    (hs : s'.responses = s.responses) : Answers i s (complete res out events s') :=
  ⟨_, _, rfl, congrArg (· ++ _) hs, .ok hlegal res out events hres hout⟩

theorem raise_answers {i : Instr} {s : State} {nres : Nat} (hillegal : ¬ OperandsLegal i)
    (hnres : nres = nresOfInstr i) : Answers i s (raise .paramInvalid nres s) :=
  ⟨_, _, rfl, rfl, hnres ▸ .paramInvalid hillegal⟩

/-- A command that never has an illegal operand and no output bytes. -/
theorem unchecked_answers {i : Instr} {s s' : State} {res : List Word64} {events : List Event}
    (hlegal : OperandsLegal i) (hres : res.length = nresOfInstr i) (hs : s'.responses = s.responses) :
    Answers i s (complete res [] events s') :=
  complete_answers hlegal hres (absurd rfl) hs

/-- A command that is carried out where its check passes and else fails, its check being that of its operands. -/
theorem checked_answers {i : Instr} {s : State} {p : Prop} [Decidable p] {o : Result} {nres : Nat}
    (hp : p ↔ OperandsLegal i) (ho : OperandsLegal i → Answers i s o) (hnres : nres = nresOfInstr i) :
    Answers i s (if p then o else raise .paramInvalid nres s) := by
  split
  next h => exact ho (hp.mp h)
  next h => exact raise_answers (fun hl => h (hp.mpr hl)) hnres

/-- `TP_SEND` with legal operands answers by the lower layer's code (R226, R336). -/
theorem sent_answers {a : BitVec 8} {x y : Word64} {d : List Byte} {s : State} {code : Word64} {events : List Event}
    (hlegal : OperandsLegal (.tpSend a x y d)) :
    Answers (.tpSend a x y d) s
      (if s.env.llStatus = 0 then complete [code] [] events s else completeLlError [code] events s) := by
  split
  next => exact unchecked_answers hlegal rfl rfl
  next hcode => exact ⟨_, _, rfl, rfl, .llError hlegal [code] events rfl ⟨a, x, y, d, rfl⟩ hcode⟩

/-- Every command gives one of the responses of `Answer`. -/
theorem exec_answers_response (i : Instr) (s : State) : Answers i s (exec i s) := by
  cases i with
  | nop | frReset | frRecv | frStatus | tpEvent | tsReset | tsUpdate | tsTime | tsRead =>
    exact unchecked_answers trivial rfl rfl
  | crc8 | crc16 | crc32 | tpRecv =>
    exact checked_answers (inRange_iff _ _) (fun hlegal => unchecked_answers hlegal rfl rfl) rfl
  | frConstructData x y d =>
    exact checked_answers
      (by simp only [Bool.and_eq_true, decide_eq_true_eq, inRange_iff, and_assoc]; rfl)
      (fun hlegal => complete_answers hlegal rfl (fun _ => .inl ⟨x, y, d, rfl⟩) rfl) rfl
  | frConstructLink a x =>
    exact checked_answers (by simp [inRange_iff, linkTypeInRange_iff, OperandsLegal, frameIdMax])
      (fun hlegal => complete_answers hlegal rfl (fun _ => .inr ⟨a, x, rfl⟩) rfl) rfl
  | tpRegister =>
    exact checked_answers (by simp [inRange_iff, portInRange_iff, OperandsLegal])
      (fun hlegal => unchecked_answers hlegal rfl rfl) rfl
  | tpRegisterDefault =>
    exact checked_answers (inRange_iff _ _) (fun hlegal => unchecked_answers hlegal rfl rfl) rfl
  | tpSend =>
    exact checked_answers (by simp [inRange_iff, portInRange_iff, OperandsLegal, and_assoc]) sent_answers rfl

/-- The one response a command adds is one of those of `Answer`. -/
theorem answer_of_exec {i : Instr} {s t : State} {r : Response} (h : exec i s = .next t)
    (hr : t.responses = s.responses ++ [r]) : Answer i s r := by
  obtain ⟨t', r', he, hr', hanswer⟩ := exec_answers_response i s
  obtain rfl : t = t' := Host.Outcome.next.inj (h.symm.trans he)
  obtain rfl : r = r' := List.singleton_inj.mp (List.append_cancel_left (hr.symm.trans hr'))
  exact hanswer

/-- Settles O11, by the three kinds of answer. -/
theorem paramInvalidIffOperandIllegal : Obligations.ParamInvalidIffOperandIllegal := by
  intro i s t r h hr
  cases answer_of_exec h hr with
  | paramInvalid hillegal => exact iff_of_true rfl hillegal
  | ok hlegal => exact iff_of_false Status.noConfusion (not_not_intro hlegal)
  | llError hlegal => exact iff_of_false Status.noConfusion (not_not_intro hlegal)

/-- Settles O12, by the three kinds of answer. -/
theorem responseShapeByCommand : Obligations.ResponseShapeByCommand := by
  intro i s t r h hr
  rw [nresOf_opc]
  cases answer_of_exec h hr with
  | paramInvalid => exact ⟨List.length_replicate, absurd rfl, Status.noConfusion, Status.noConfusion⟩
  | ok _ res out events hres hout => exact ⟨hres, hout, Status.noConfusion, Status.noConfusion⟩
  | llError _ res events hres hsend hcode => exact ⟨hres, absurd rfl, fun _ => ⟨hsend, hcode⟩, Status.noConfusion⟩

/-! ## Lines of the assembler -/

/-- Two lines assemble to the same where their tokens do. -/
theorem assemble_congr {line line' : String} {toks toks' : List Token} (h : tokens? line.toList = some toks)
    (h' : tokens? line'.toList = some toks') (heq : assembleTokens toks = assembleTokens toks') :
    assemble line = assemble line' := by
  simp only [assemble, h, h', heq]

/-- `CRC8.START`, for every payload: `CRC8` from the seed 0x00 (R120). -/
theorem assembleTokens_crc8Start (bs : List Byte) :
    assembleTokens [.word "CRC8.START", .word "data", .equals, .bytes bs] =
      assembleTokens [.word "CRC8", .word "crc", .equals, .word "0x00", .comma, .word "data", .equals, .bytes bs] :=
  rfl

/-- `CRC16.START`, for every payload: `CRC16` from the seed 0xFFFF (R120). -/
theorem assembleTokens_crc16Start (bs : List Byte) :
    assembleTokens [.word "CRC16.START", .word "data", .equals, .bytes bs] =
      assembleTokens [.word "CRC16", .word "crc", .equals, .word "0xFFFF", .comma, .word "data", .equals, .bytes bs] :=
  rfl

/-- `CRC32.START`, for every payload: `CRC32` from the seed 0x00000000 (R120). -/
theorem assembleTokens_crc32Start (bs : List Byte) :
    assembleTokens [.word "CRC32.START", .word "data", .equals, .bytes bs] =
      assembleTokens
        [.word "CRC32", .word "crc", .equals, .word "0x00000000", .comma, .word "data", .equals, .bytes bs] :=
  rfl

/-- `TP_DEREGISTER`, for every port operand: `TP_REGISTER` with nothing enabled (R120). -/
theorem assembleTokens_tpDeregister (port : String) :
    assembleTokens [.word "TP_DEREGISTER", .word "port", .equals, .word port] =
      assembleTokens
        [.word "TP_REGISTER", .word "port", .equals, .word port, .comma, .word "flags", .equals, .word "0", .comma,
          .word "ud", .equals, .word "0", .comma, .word "meta", .equals, .word "0"] := by
  have hzero : value? "0" = some 0 := rfl
  cases hport : value? port with
  | none => simp [assembleTokens, asmTable, operands?, hport]
  | some p => simp [assembleTokens, asmTable, operands?, data?, AsmRow.transaction?, hport, hzero]

/-- `TP_DEREGISTER_DEFAULT`: `TP_REGISTER_DEFAULT` with nothing enabled (R120). -/
theorem assembleTokens_tpDeregisterDefault :
    assembleTokens [.word "TP_DEREGISTER_DEFAULT"] =
      assembleTokens
        [.word "TP_REGISTER_DEFAULT", .word "flags", .equals, .word "0", .comma, .word "ud", .equals, .word "0"] :=
  rfl

/-- Settles O59: the tokens of a pseudo-command assemble to what those of its expansion do; the rest is evaluation. -/
theorem assemblerLinesAndPseudoCommands : Obligations.AssemblerLinesAndPseudoCommands :=
  ⟨by decide +kernel,
    assemble_congr (by decide +kernel) (by decide +kernel) (assembleTokens_crc8Start [0x55, 0x00]),
    by decide +kernel,
    assemble_congr (by decide +kernel) (by decide +kernel) (assembleTokens_crc16Start [0x55, 0x00]),
    by decide +kernel,
    assemble_congr (by decide +kernel) (by decide +kernel) (assembleTokens_crc32Start [0x55, 0x00]),
    by decide +kernel,
    assemble_congr (by decide +kernel) (by decide +kernel) (assembleTokens_tpDeregister "7"),
    by decide +kernel,
    assemble_congr (by decide +kernel) (by decide +kernel) assembleTokens_tpDeregisterDefault,
    by decide +kernel⟩

end Sys2Proof.Machine
end

section
/-! PROOFS. The family of spec/40_crc.md: the three generators, the CRC commands and the length code. -/

namespace Sys2Proof.Machine

/-! ## Reserved fields, for the statement of any one command -/

/-- A command answers ILLEGAL_COMMAND on what sets a field that the row of its opcode reserves (R114). -/
theorem answersIllegal_of_row {opc : BitVec 8} {bad : Transaction → Prop} (row : OpRow) (hrow : opRow? opc = some row)
    (hbad : ∀ tx, bad tx → row.reservedSet tx = true) : AnswersIllegal opc row.nres bad := by
  rintro s tx env rest hport rfl hframed hset
  have hnres : nresOf tx.opc = row.nres := by simp [nresOf, hrow]
  rw [← hnres]
  exact step_of_decode_reserved hport (decode_of_reservedSet hframed hrow (hbad tx hset))

/-- The same for a row of class `L`, which reserves `A`. -/
theorem answersIllegal_of_classL {opc : BitVec 8} {nres : Nat} (narg : Nat)
    (hrow : opRow? opc = some ⟨opc, .l, narg, nres⟩) : AnswersIllegal opc nres fun tx => tx.a ≠ 0 :=
  answersIllegal_of_row _ hrow fun tx ha => (OpRow.reservedSet_iff _ tx).mpr (.inl ⟨rfl, ha⟩)

/-! ## One bit of a generator -/

/-- One bit, most significant first, at any width and polynomial (R141, R144). -/
def msbFirstBit {w : Nat} (poly c : BitVec w) : BitVec w :=
  if c.getLsbD (w - 1) then (c <<< 1) ^^^ poly else c <<< 1

theorem crc8Bit_eq : crc8Bit = msbFirstBit 0xD7 := rfl

theorem crc16Bit_eq : crc16Bit = msbFirstBit 0x1021 := rfl

/-- `msbFirstBit` on naturals, as the statement writes it for the widths 8 and 16. -/
def msbFirstBitNat (w poly c : Nat) : Nat :=
  if c / 2 ^ (w - 1) % 2 = 1 then (2 * c ^^^ poly) % 2 ^ w else 2 * c % 2 ^ w

/-- One bit of CRC-32 on naturals, as the statement writes it (R146). -/
def crc32BitNat (c : Nat) : Nat := if c % 2 = 1 then c / 2 ^^^ 0xEDB88320 else c / 2

/-- A bit of a word is the digit of its number. -/
theorem getLsbD_iff_digit {w : Nat} (c : BitVec w) (i : Nat) : c.getLsbD i = true ↔ c.toNat / 2 ^ i % 2 = 1 := by
  rw [← BitVec.testBit_toNat, Nat.testBit_eq_decide_div_mod_eq, decide_eq_true_eq]

theorem toNat_shiftLeft_one {w : Nat} (c : BitVec w) : (c <<< 1).toNat = 2 * c.toNat % 2 ^ w := by
  rw [BitVec.toNat_shiftLeft, Nat.shiftLeft_eq, Nat.pow_one, Nat.mul_comm]

theorem toNat_msbFirstBit {w : Nat} (poly c : BitVec w) :
    (msbFirstBit poly c).toNat = msbFirstBitNat w poly.toNat c.toNat := by
  simp only [msbFirstBit, msbFirstBitNat, getLsbD_iff_digit]
  split
  · rw [BitVec.toNat_xor, toNat_shiftLeft_one, Nat.xor_mod_two_pow, Nat.mod_eq_of_lt poly.isLt]
  · exact toNat_shiftLeft_one c

theorem toNat_crc32Bit (c : BitVec 32) : (crc32Bit c).toNat = crc32BitNat c.toNat := by
  have hlow : c.getLsbD 0 = true ↔ c.toNat % 2 = 1 := by simpa using getLsbD_iff_digit c 0
  have hshift : (c >>> 1).toNat = c.toNat / 2 := by simp [Nat.shiftRight_eq_div_pow]
  simp only [crc32Bit, crc32BitNat, hlow]
  split
  · rw [BitVec.toNat_xor, hshift]; rfl
  · exact hshift

/-! ## The bytes of a generator, on naturals -/

/-- The loop of R141, R144 and R146: each byte is brought in by `place`, then eight bits are shifted out. -/
def crcLoopNat (bit place : Nat → Nat) (data : List Byte) (c : Nat) : Nat :=
  data.foldl (fun c b => bit^[8] (c ^^^ place b.toNat)) c

/-- A loop on words is the loop on naturals, where one bit is and where a byte is brought in the same way. -/
theorem toNat_foldl_eq_crcLoopNat {w : Nat} {bit : BitVec w → BitVec w} {place : Byte → BitVec w}
    {bitNat placeNat : Nat → Nat} (hbit : ∀ c, (bit c).toNat = bitNat c.toNat)
    (hplace : ∀ b, (place b).toNat = placeNat b.toNat) (data : List Byte) (c : BitVec w) :
    (data.foldl (fun c b => bit^[8] (c ^^^ place b)) c).toNat = crcLoopNat bitNat placeNat data c.toNat := by
  refine (List.foldl_hom BitVec.toNat fun c b => ?_).symm
  have hbits := Function.Semiconj.iterate_right (f := BitVec.toNat) hbit 8
  rw [hbits, BitVec.toNat_xor, hplace]

theorem toNat_crc8Update (c : BitVec 8) (data : List Byte) :
    (crc8Update c data).toNat = crcLoopNat (msbFirstBitNat 8 0xD7) id data c.toNat :=
  toNat_foldl_eq_crcLoopNat (place := id) (toNat_msbFirstBit _) (fun _ => rfl) data c

theorem toNat_crc16Update (c : BitVec 16) (data : List Byte) :
    (crc16Update c data).toNat = crcLoopNat (msbFirstBitNat 16 0x1021) (2 ^ 8 * ·) data c.toNat := by
  refine toNat_foldl_eq_crcLoopNat (place := fun b => b.setWidth 16 <<< 8) (toNat_msbFirstBit _) (fun b => ?_) data c
  have hlt : 2 ^ 8 * b.toNat < 2 ^ 16 := by have := b.isLt; omega
  rw [BitVec.toNat_shiftLeft, BitVec.toNat_setWidth_of_le (by decide), Nat.shiftLeft_eq, Nat.mul_comm,
    Nat.mod_eq_of_lt hlt]

theorem toNat_crc32Update (c : BitVec 32) (data : List Byte) :
    (crc32Update c data).toNat = crcLoopNat crc32BitNat id data (c.toNat ^^^ 0xFFFFFFFF) ^^^ 0xFFFFFFFF := by
  have hloop := toNat_foldl_eq_crcLoopNat (place := fun b => b.setWidth 32) (placeNat := id) toNat_crc32Bit
    (fun b => BitVec.toNat_setWidth_of_le (by decide)) data (c ^^^ 0xFFFFFFFF)
  exact congrArg (· ^^^ 0xFFFFFFFF) hloop

/-! ## The chaining law -/

/-- The chaining law of R140. -/
def Chains {w : Nat} (update : BitVec w → List Byte → BitVec w) : Prop :=
  ∀ c a b, update (update c a) b = update c (a ++ b)

theorem crc8Update_chains : Chains crc8Update := fun _ _ _ => List.foldl_append.symm

theorem crc16Update_chains : Chains crc16Update := fun _ _ _ => List.foldl_append.symm

/-- The xorout of the first call and the init of the second cancel (R146). -/
theorem crc32Update_chains : Chains crc32Update := by
  intro c a b
  simp only [crc32Update, List.foldl_append, BitVec.xor_assoc, BitVec.xor_self, BitVec.xor_zero]

theorem crc32Update_nil (c : BitVec 32) : crc32Update c [] = c := by
  simp only [crc32Update, List.foldl_nil, BitVec.xor_assoc, BitVec.xor_self, BitVec.xor_zero]

/-- Settles O18: the loops bit by bit and byte by byte, the check values by evaluation, the chaining laws. -/
theorem generatorsChain : Obligations.GeneratorsChain :=
  ⟨toNat_crc8Update, toNat_crc16Update, toNat_crc32Update,
    by decide +kernel, by decide +kernel, by decide +kernel, rfl, rfl, rfl,
    crc8Update_chains, crc16Update_chains, crc32Update_chains⟩

/-! ## The three commands as one -/

/-- A CRC command of width `w` (R147 to R149). -/
def execCrc {w : Nat} (update : BitVec w → List Byte → BitVec w) (crcIn : Word64) (data : List Byte) (s : State) :
    Result :=
  if inRange crcIn (2 ^ w - 1) then complete [(update (crcIn.setWidth w) data).setWidth 64] [] [] s
  else raise .paramInvalid 1 s

theorem exec_crc8 (crcIn : Word64) (data : List Byte) (s : State) :
    exec (.crc8 crcIn data) s = execCrc crc8Update crcIn data s := rfl

theorem exec_crc16 (crcIn : Word64) (data : List Byte) (s : State) :
    exec (.crc16 crcIn data) s = execCrc crc16Update crcIn data s := rfl

theorem exec_crc32 (crcIn : Word64) (data : List Byte) (s : State) :
    exec (.crc32 crcIn data) s = execCrc crc32Update crcIn data s := rfl

theorem answered_inj {s : State} {r r' : Response} : answered s r = answered s r' ↔ r = r' := by
  simp [answered]

section
variable {w : Nat} {update : BitVec w → List Byte → BitVec w} {c x : Word64} {data a b : List Byte} {s : State}

theorem execCrc_of_le (hc : c.toNat ≤ 2 ^ w - 1) :
    execCrc update c data s =
      .next (answered s (okResponse [(update (c.setWidth w) data).setWidth 64] [] [])) :=
  if_pos ((inRange_iff c _).mpr hc)

theorem execCrc_of_gt (hc : 2 ^ w - 1 < c.toNat) :
    execCrc update c data s = .next (answered s (failedResponse .paramInvalid 1)) :=
  if_neg fun h => Nat.not_le_of_lt hc ((inRange_iff c _).mp h)

/-- A CRC command answers OK just where `crc_in` is in range, and then with the generator's value. -/
theorem execCrc_eq_ok_iff :
    execCrc update c data s = .next (answered s (okResponse [x] [] [])) ↔
      c.toNat ≤ 2 ^ w - 1 ∧ x = (update (c.setWidth w) data).setWidth 64 := by
  by_cases hc : c.toNat ≤ 2 ^ w - 1
  · rw [execCrc_of_le hc, Host.Outcome.next.injEq, answered_inj]
    simp [okResponse, hc, eq_comm]
  · rw [execCrc_of_gt (Nat.lt_of_not_le hc), Host.Outcome.next.injEq, answered_inj]
    simp [okResponse, failedResponse, hc]

/-- A running value given back as a result word is in range as `crc_in`. -/
theorem toNat_setWidth_le_mask (hw : w ≤ 64) (v : BitVec w) : (v.setWidth 64).toNat ≤ 2 ^ w - 1 := by
  rw [BitVec.toNat_setWidth_of_le hw]
  exact Nat.le_sub_one_of_lt v.isLt

/-- R150: a generator's chaining law carries over to its command. -/
theorem execCrc_chain (hw : w ≤ 64) (hchain : Chains update)
    (h : execCrc update c a s = .next (answered s (okResponse [x] [] []))) :
    ∃ y, execCrc update x b s = .next (answered s (okResponse [y] [] [])) ∧
      execCrc update c (a ++ b) s = .next (answered s (okResponse [y] [] [])) := by
  obtain ⟨hc, rfl⟩ := execCrc_eq_ok_iff.mp h
  refine ⟨_, execCrc_of_le (toNat_setWidth_le_mask hw _), ?_⟩
  rw [execCrc_of_le hc, BitVec.setWidth_setWidth_of_le _ hw, BitVec.setWidth_eq, hchain]

/-- R150: an empty payload returns `crc_in`. -/
theorem execCrc_nil (hnil : ∀ v, update v [] = v) (hc : c.toNat ≤ 2 ^ w - 1) :
    execCrc update c [] s = .next (answered s (okResponse [c] [] [])) := by
  have hlt : c.toNat < 2 ^ w := Nat.lt_of_le_sub_one (Nat.two_pow_pos w) hc
  refine execCrc_eq_ok_iff.mpr ⟨hc, BitVec.eq_of_toNat_eq ?_⟩
  rw [hnil, BitVec.toNat_setWidth, BitVec.toNat_setWidth, Nat.mod_eq_of_lt hlt, Nat.mod_eq_of_lt c.isLt]

end

/-- Settles O19: the three commands are `execCrc` of a generator that chains. -/
theorem crcCommandsChain : Obligations.CrcCommandsChain := by
  rintro op (rfl | rfl | rfl)
  · exact ⟨fun _ _ _ _ _ => execCrc_chain (by decide) crc8Update_chains,
      fun _ _ => execCrc_nil (update := crc8Update) fun _ => rfl⟩
  · exact ⟨fun _ _ _ _ _ => execCrc_chain (by decide) crc16Update_chains,
      fun _ _ => execCrc_nil (update := crc16Update) fun _ => rfl⟩
  · exact ⟨fun _ _ _ _ _ => execCrc_chain (by decide) crc32Update_chains,
      fun _ _ => execCrc_nil crc32Update_nil⟩

/-- Settles O15: CRC8 is `execCrc` at width 8, and its row reserves `A`. -/
theorem crc8Result : Obligations.Crc8Result :=
  ⟨fun _ _ _ => execCrc_of_le (w := 8), fun _ _ _ => execCrc_of_gt (w := 8), answersIllegal_of_classL 1 (by decide)⟩

/-- Settles O16: CRC16 is `execCrc` at width 16, and its row reserves `A`. -/
theorem crc16Result : Obligations.Crc16Result :=
  ⟨fun _ _ _ => execCrc_of_le (w := 16), fun _ _ _ => execCrc_of_gt (w := 16), answersIllegal_of_classL 1 (by decide)⟩

/-- Settles O17: CRC32 is `execCrc` at width 32, and its row reserves `A`. -/
theorem crc32Result : Obligations.Crc32Result :=
  ⟨fun _ _ _ => execCrc_of_le (w := 32), fun _ _ _ => execCrc_of_gt (w := 32), answersIllegal_of_classL 1 (by decide)⟩

/-! ## The length code is linear -/

/-- The polynomial is added for each operand whose top bit is set, and added twice it cancels. -/
theorem msbFirstBit_xor {w : Nat} (poly c d : BitVec w) :
    msbFirstBit poly (c ^^^ d) = msbFirstBit poly c ^^^ msbFirstBit poly d := by
  simp only [msbFirstBit, BitVec.getLsbD_xor, BitVec.shiftLeft_xor_distrib]
  cases c.getLsbD (w - 1) <;> cases d.getLsbD (w - 1) <;> simp [BitVec.xor_assoc, BitVec.xor_comm poly]

/-- The length CRC starts from 0, so it is linear over exclusive or. -/
theorem lenCrc_xor (a b : Byte) : lenCrc (a ^^^ b) = lenCrc a ^^^ lenCrc b := by
  have hlin : Function.Semiconj₂ crc8Bit (· ^^^ ·) (· ^^^ ·) := msbFirstBit_xor 0xD7
  have hlen : ∀ x, lenCrc x = crc8Bit^[8] x := fun x => congrArg crc8Bit^[8] BitVec.zero_xor
  simp only [hlen]
  exact hlin.iterate 8 a b

/-- The code word `{LENCRC[a], a}` of R143. -/
def lenCodeword (a : Byte) : BitVec (8 + 8) := lenCrc a ++ a

theorem lenCodeword_xor (a b : Byte) : lenCodeword (a ^^^ b) = lenCodeword a ^^^ lenCodeword b := by
  simp only [lenCodeword, lenCrc_xor, BitVec.xor_append]

/-- The distance of two words is the number of bits set in their exclusive or. -/
theorem hammingDistance_eq_xor_zero {w : Nat} (x y : BitVec w) :
    hammingDistance x y = hammingDistance (x ^^^ y) 0 := by
  simp [hammingDistance]

/-- Every code word of a nonzero byte has at least 5 bits set: the 255 bytes, one by one. -/
theorem five_le_weight_lenCodeword : ∀ a : Byte, a ≠ 0 → 5 ≤ hammingDistance (lenCodeword a) 0 := by
  decide +kernel

/-- Settles O20: the code is linear, so its least distance is its least weight; 0x05 and 0x00 meet it. -/
theorem lengthCodeDistanceIsFive : Obligations.LengthCodeDistanceIsFive := by
  refine ⟨fun a b hne => ?_, 0x05, 0x00, by decide, by decide +kernel⟩
  have hxor : a ^^^ b ≠ 0 := fun h => hne (BitVec.xor_eq_zero_iff.mp h)
  calc 5 ≤ hammingDistance (lenCodeword (a ^^^ b)) 0 := five_le_weight_lenCodeword _ hxor
    _ = hammingDistance (lenCodeword a) (lenCodeword b) := by
      rw [lenCodeword_xor, ← hammingDistance_eq_xor_zero]

end Sys2Proof.Machine
end

section
/-! PROOFS. The family of spec/41_framer.md: the framer's commands, the scanner byte by byte, and its replay loop. -/

namespace Sys2Proof.Machine

/-! ## Reserved fields, by usage class -/

/-- `answersIllegal_of_row` for a row of class `Z`, which reserves both fields. -/
theorem answersIllegal_of_classZ {opc : BitVec 8} {nres : Nat} (narg : Nat)
    (hrow : opRow? opc = some ⟨opc, .z, narg, nres⟩) : AnswersIllegal opc nres fun tx => tx.a ≠ 0 ∨ tx.len ≠ 0 :=
  answersIllegal_of_row _ hrow fun tx hset =>
    (OpRow.reservedSet_iff _ tx).mpr (hset.imp (fun ha => ⟨rfl, ha⟩) fun hlen => ⟨rfl, hlen⟩)

/-- `answersIllegal_of_row` for a row of class `A`, which reserves `LEN`. -/
theorem answersIllegal_of_classA {opc : BitVec 8} {nres : Nat} (narg : Nat)
    (hrow : opRow? opc = some ⟨opc, .a, narg, nres⟩) : AnswersIllegal opc nres fun tx => tx.len ≠ 0 :=
  answersIllegal_of_row _ hrow fun tx hlen => (OpRow.reservedSet_iff _ tx).mpr (.inr ⟨rfl, hlen⟩)

/-! ## The packed forms of a frame, on naturals -/

theorem toNat_append_eq_add {m n : Nat} (x : BitVec m) (y : BitVec n) :
    (x ++ y).toNat = 2 ^ n * x.toNat + y.toNat := by
  rw [BitVec.toNat_append, ← Nat.shiftLeft_add_eq_or_of_lt y.isLt, Nat.shiftLeft_eq, Nat.mul_comm]

theorem extractLsb'_eq_ofNat {w : Nat} (v : BitVec w) (start len : Nat) :
    v.extractLsb' start len = BitVec.ofNat len (v.toNat / 2 ^ start) := by
  rw [← Nat.shiftRight_eq_div_pow]
  rfl

theorem toNat_extractLsb'_eq_div {w : Nat} (v : BitVec w) (start len : Nat) :
    (v.extractLsb' start len).toNat = v.toNat / 2 ^ start % 2 ^ len := by
  rw [BitVec.extractLsb'_toNat, Nat.shiftRight_eq_div_pow]

theorem toNat_typeIdByte (t : BitVec 5) (id : BitVec 11) :
    (typeIdByte t id).toNat = 8 * t.toNat + id.toNat / 256 := by
  have := id.isLt
  rw [typeIdByte, toNat_append_eq_add, toNat_extractLsb'_eq_div]
  omega

theorem toNat_idByte (id : BitVec 11) : (idByte id).toNat = id.toNat % 256 := by
  rw [idByte, toNat_extractLsb'_eq_div]
  omega

theorem toNat_frameTypeOf (b : Byte) : (frameTypeOf b).toNat = b.toNat / 8 := by
  have := b.isLt
  rw [frameTypeOf, toNat_extractLsb'_eq_div]
  omega

theorem toNat_frameIdOf (b2 b3 : Byte) : (frameIdOf b2 b3).toNat = 256 * (b2.toNat % 8) + b3.toNat := by
  rw [frameIdOf, toNat_append_eq_add, toNat_extractLsb'_eq_div]
  omega

theorem toNat_ofLe16 (b0 b1 : Byte) : (ofLe16 b0 b1).toNat = b0.toNat + 256 * b1.toNat := by
  rw [ofLe16, toNat_append_eq_add]
  omega

theorem toNat_ofLe32 (b0 b1 b2 b3 : Byte) :
    (ofLe32 b0 b1 b2 b3).toNat = b0.toNat + 2 ^ 8 * b1.toNat + 2 ^ 16 * b2.toNat + 2 ^ 24 * b3.toNat := by
  simp only [ofLe32, toNat_append_eq_add]
  omega

theorem le16_eq_ofNat (v : BitVec 16) : le16 v = [BitVec.ofNat 8 v.toNat, BitVec.ofNat 8 (v.toNat / 256)] := by
  simp only [le16, extractLsb'_eq_ofNat, Nat.pow_zero, Nat.div_one, Nat.reducePow]

theorem le32_eq_ofNat (v : BitVec 32) :
    le32 v = [BitVec.ofNat 8 v.toNat, BitVec.ofNat 8 (v.toNat / 2 ^ 8), BitVec.ofNat 8 (v.toNat / 2 ^ 16),
      BitVec.ofNat 8 (v.toNat / 2 ^ 24)] := by
  simp only [le32, extractLsb'_eq_ofNat, Nat.pow_zero, Nat.div_one]

theorem length_le16 (v : BitVec 16) : (le16 v).length = 2 := rfl

theorem length_le32 (v : BitVec 32) : (le32 v).length = 4 := rfl

theorem frameTypeOf_eq_ofNat (b : Byte) : frameTypeOf b = BitVec.ofNat 5 (b.toNat / 8) := by
  rw [← toNat_frameTypeOf, BitVec.ofNat_toNat, BitVec.setWidth_eq]

theorem frameIdOf_eq_ofNat (b2 b3 : Byte) :
    frameIdOf b2 b3 = BitVec.ofNat 11 (256 * (b2.toNat % 8) + b3.toNat) := by
  rw [← toNat_frameIdOf, BitVec.ofNat_toNat, BitVec.setWidth_eq]

theorem ofLe16_eq_ofNat (b0 b1 : Byte) : ofLe16 b0 b1 = BitVec.ofNat 16 (b0.toNat + 256 * b1.toNat) := by
  rw [← toNat_ofLe16, BitVec.ofNat_toNat, BitVec.setWidth_eq]

/-- The type and id bytes of a frame in numbers, for an id in range (R103). -/
theorem typeIdByte_eq_ofNat (t : BitVec 5) {frameId : Word64} (hid : frameId.toNat ≤ 2047) :
    typeIdByte t (frameId.setWidth 11) = BitVec.ofNat 8 (8 * t.toNat + frameId.toNat / 256) := by
  have := t.isLt
  rw [← BitVec.toNat_inj, toNat_typeIdByte, BitVec.toNat_setWidth, BitVec.toNat_ofNat]
  omega

theorem idByte_eq_ofNat (frameId : Word64) : idByte (frameId.setWidth 11) = BitVec.ofNat 8 frameId.toNat := by
  rw [← BitVec.toNat_inj, toNat_idByte, BitVec.toNat_setWidth, BitVec.toNat_ofNat]
  omega

/-- The two header bytes hold the type and the id, and nothing else (R103). -/
theorem typeIdByte_idByte_eq_iff {t : BitVec 5} {id : BitVec 11} {b2 b3 : Byte} :
    (typeIdByte t id = b2 ∧ idByte id = b3) ↔ (t = frameTypeOf b2 ∧ id = frameIdOf b2 b3) := by
  simp only [← BitVec.toNat_inj, toNat_typeIdByte, toNat_idByte, toNat_frameTypeOf, toNat_frameIdOf]
  omega

theorem le16_eq_iff {v : BitVec 16} {b0 b1 : Byte} : le16 v = [b0, b1] ↔ v = ofLe16 b0 b1 := by
  have := v.isLt
  simp only [le16_eq_ofNat, List.cons.injEq, and_true, ← BitVec.toNat_inj, toNat_ofLe16, BitVec.toNat_ofNat]
  omega

theorem le32_eq_iff {v : BitVec 32} {b0 b1 b2 b3 : Byte} : le32 v = [b0, b1, b2, b3] ↔ v = ofLe32 b0 b1 b2 b3 := by
  have := v.isLt
  simp only [le32_eq_ofNat, List.cons.injEq, and_true, ← BitVec.toNat_inj, toNat_ofLe32, BitVec.toNat_ofNat]
  omega

theorem frameTypeOf_eq_typeData_iff {b : Byte} : frameTypeOf b = typeData ↔ b.toNat / 8 = 0 := by
  rw [← BitVec.toNat_inj, toNat_frameTypeOf]
  rfl

/-- The five link types as numbers (R102). -/
theorem isLinkType_iff {t : BitVec 5} :
    isLinkType t = true ↔
      t.toNat = 0x0F ∨ t.toNat = 0x17 ∨ t.toNat = 0x1B ∨ t.toNat = 0x1D ∨ t.toNat = 0x1E := by
  simp [isLinkType, linkTypes, ← BitVec.toNat_inj]

/-! ## Reading the buffer -/

theorem setIfInBounds_eq_set (buf : Vector Byte 269) {i : Nat} (b : Byte) (h : i < 269) :
    buf.setIfInBounds i b = buf.set i b h := by
  ext j hj
  simp [Vector.getElem_setIfInBounds, Vector.getElem_set]

theorem Framer.storeAt_eq_set (fr : Framer) {i : Nat} (b : Byte) (h : i < 269) :
    fr.storeAt i b = { fr with buf := fr.buf.set i b h, n := i + 1 } := by
  rw [← setIfInBounds_eq_set]
  rfl

theorem Framer.slice_eq_map {fr : Framer} {i len : Nat} (h : i + len ≤ 269) :
    fr.slice i len = (List.range len).map fun j => fr.byteAt (i + j) := by
  refine List.ext_getElem (by rw [Framer.slice_length h]; simp) fun j hj hj' => ?_
  have hlt : i + j < 269 := by simp at hj'; omega
  simp [Framer.slice, Framer.byteAt, Vector.getD, hlt]

/-- A slice is the slice of its first bytes and that of the rest. -/
theorem Framer.slice_add (fr : Framer) (i a b : Nat) : fr.slice i (a + b) = fr.slice i a ++ fr.slice (i + a) b := by
  simp [Framer.slice, List.take_add]

theorem Framer.slice_storeAt_of_le {fr : Framer} {i len : Nat} (b : Byte) (h : i + len ≤ fr.n) (hn : fr.n ≤ 269) :
    (fr.storeAt fr.n b).slice i len = fr.slice i len := by
  rw [Framer.slice_eq_map (by omega), Framer.slice_eq_map (by omega)]
  refine List.map_congr_left fun j hj => Framer.byteAt_storeAt_of_lt b ?_
  have := List.mem_range.mp hj
  omega

/-- Holding a byte puts it behind the bytes held. -/
theorem Framer.slice_storeAt_n {fr : Framer} (b : Byte) (hn : fr.n < 269) :
    (fr.storeAt fr.n b).slice 0 (fr.n + 1) = fr.slice 0 fr.n ++ [b] := by
  rw [Framer.slice_add, Framer.slice_storeAt_of_le b (by omega) hn.le, Framer.slice_eq_map (len := 1) (by omega)]
  simp [Framer.byteAt_storeAt_self fr b hn]

/-- The parts of a complete candidate: its start bytes, the span of its frame CRC, the CRC received, the last byte
(R100, R171). -/
theorem slice_target_eq {fr : Framer} (h9 : 9 ≤ fr.target) (h269 : fr.target ≤ 269) :
    fr.slice 0 fr.target =
      [fr.byteAt 0, fr.byteAt 1] ++ crcSpan fr ++ le32 (receivedCrc fr) ++ [fr.byteAt (fr.target - 1)] := by
  obtain ⟨m, hm⟩ : ∃ m, fr.target = 2 + (m + (4 + 1)) := ⟨fr.target - 7, by omega⟩
  have hcrc : le32 (receivedCrc fr) = fr.slice (2 + m) 4 := by
    rw [Framer.slice_eq_map (by omega)]
    refine le32_eq_iff.mpr ?_
    simp [receivedCrc, hm, show 2 + (m + (4 + 1)) - 5 = 2 + m by omega, show 2 + (m + (4 + 1)) - 4 = 2 + m + 1 by omega,
      show 2 + (m + (4 + 1)) - 3 = 2 + m + 2 by omega, show 2 + (m + (4 + 1)) - 2 = 2 + m + 3 by omega]
  have hspan : crcSpan fr = fr.slice 2 m := by rw [crcSpan, show fr.target - 7 = m by omega]
  have hsof : fr.slice 0 2 = [fr.byteAt 0, fr.byteAt 1] := Framer.slice_eq_map (by omega)
  have heof : fr.slice (2 + m + 4) 1 = [fr.byteAt (fr.target - 1)] := by
    rw [Framer.slice_eq_map (by omega), show fr.target - 1 = 2 + m + 4 by omega]
    rfl
  rw [hcrc, hspan, ← hsof, ← heof, hm, fr.slice_add 0, fr.slice_add (0 + 2), fr.slice_add (0 + 2 + m)]
  simp

/-- The span of a complete data frame's CRC: six header bytes and the payload (R180). -/
theorem crcSpan_eq_header_append {fr : Framer} (h13 : 13 ≤ fr.target) (h269 : fr.target ≤ 269) :
    crcSpan fr = [fr.byteAt 2, fr.byteAt 3, fr.byteAt 4, fr.byteAt 5, fr.byteAt 6, fr.byteAt 7] ++
      fr.slice 8 (fr.target - 13) := by
  have hheader : fr.slice 2 6 = [fr.byteAt 2, fr.byteAt 3, fr.byteAt 4, fr.byteAt 5, fr.byteAt 6, fr.byteAt 7] :=
    Framer.slice_eq_map (by omega)
  rw [crcSpan, show fr.target - 7 = 6 + (fr.target - 13) by omega, fr.slice_add 2, hheader]

/-- What a complete candidate's span says when it is the body of a data frame. -/
theorem crcSpan_eq_dataBody_iff {fr : Framer} (h13 : 13 ≤ fr.target) (h269 : fr.target ≤ 269) {id : BitVec 11}
    {md : BitVec 16} {payload : List Byte} :
    crcSpan fr = dataBody id md payload ↔
      (typeData = frameTypeOf (fr.byteAt 2) ∧ id = frameIdOf (fr.byteAt 2) (fr.byteAt 3)) ∧
      (fr.byteAt 4 = BitVec.ofNat 8 (payload.length - 1) ∧ fr.byteAt 5 = lenCrc (fr.byteAt 4)) ∧
      md = ofLe16 (fr.byteAt 6) (fr.byteAt 7) ∧ fr.slice 8 (fr.target - 13) = payload := by
  rw [crcSpan_eq_header_append h13 h269, ← typeIdByte_idByte_eq_iff, ← le16_eq_iff]
  simp only [dataBody, le16, List.cons_append, List.nil_append, List.cons.injEq]
  constructor
  · rintro ⟨h2, h3, h4, h5, h6, h7, hp⟩
    exact ⟨⟨h2.symm, h3.symm⟩, ⟨h4, h5.trans (congrArg lenCrc h4.symm)⟩, ⟨h6.symm, h7.symm, trivial⟩, hp⟩
  · rintro ⟨⟨h2, h3⟩, ⟨h4, h5⟩, ⟨h6, h7, -⟩, hp⟩
    exact ⟨h2.symm, h3.symm, h4, h5.trans (congrArg lenCrc h4), h6.symm, h7.symm, hp⟩

/-- What a complete candidate's span says when it is the body of a link frame. -/
theorem crcSpan_eq_linkBody_iff {fr : Framer} (htarget : fr.target = linkSize + 1) {t : BitVec 5} {id : BitVec 11} :
    crcSpan fr = linkBody t id ↔ t = frameTypeOf (fr.byteAt 2) ∧ id = frameIdOf (fr.byteAt 2) (fr.byteAt 3) := by
  have hspan : crcSpan fr = [fr.byteAt 2, fr.byteAt 3] := by
    rw [crcSpan, htarget]
    exact Framer.slice_eq_map (by decide)
  rw [hspan, linkBody, ← typeIdByte_idByte_eq_iff]
  simp [eq_comm]

/-- A complete candidate whose span is the body of a data frame delivers that frame. -/
theorem frameEvent_of_dataBody {fr : Framer} (h13 : 13 ≤ fr.target) (h269 : fr.target ≤ 269) {id : BitVec 11}
    {md : BitVec 16} {payload : List Byte} (h : crcSpan fr = dataBody id md payload) :
    frameEvent fr = .frData id md payload := by
  obtain ⟨⟨ht, rfl⟩, -, rfl, rfl⟩ := (crcSpan_eq_dataBody_iff h13 h269).mp h
  exact if_pos ht.symm

/-- A complete candidate whose span is the body of a link frame delivers that frame. -/
theorem frameEvent_of_linkBody {fr : Framer} (htarget : fr.target = linkSize + 1) {t : BitVec 5} {id : BitVec 11}
    (ht : t ≠ typeData) (h : crcSpan fr = linkBody t id) : frameEvent fr = .frLink t id := by
  obtain ⟨rfl, rfl⟩ := (crcSpan_eq_linkBody_iff htarget).mp h
  exact if_neg ht

theorem ne_typeData_of_isLinkType {t : BitVec 5} (h : isLinkType t = true) : t ≠ typeData := by
  rintro rfl
  exact absurd h (by decide)

/-! ## The rules of the scanner, by parse state -/

theorem frStep_of_sof1 {crc : List Byte → BitVec 32} {fr : Framer} {b : Byte} (hs : fr.state = .sof1) :
    frStep crc fr b = stepSof1 fr b := by
  simp [frStep, hs]

theorem frStep_of_sof2 {crc : List Byte → BitVec 32} {fr : Framer} {b : Byte} (hs : fr.state = .sof2) :
    frStep crc fr b = stepSof2 fr b := by
  simp [frStep, hs]

theorem frStep_of_frameType {crc : List Byte → BitVec 32} {fr : Framer} {b : Byte} (hs : fr.state = .frameType) :
    frStep crc fr b = stepFrameType fr b := by
  simp [frStep, hs]

theorem frStep_of_dataHeader {crc : List Byte → BitVec 32} {fr : Framer} {b : Byte} (hs : fr.state = .dataHeader) :
    frStep crc fr b = stepDataHeader fr b := by
  simp [frStep, hs]

theorem frStep_of_store {crc : List Byte → BitVec 32} {fr : Framer} {b : Byte} (hs : fr.state = .store) :
    frStep crc fr b = stepStore crc fr b := by
  simp [frStep, hs]

/-- The gate of R172, field by field. -/
theorem frError_eq (fr : Framer) :
    frError fr =
      ({ fr with isSync := false, resyncCount := if fr.isSync then fr.resyncCount + 1 else fr.resyncCount },
        if fr.isSync then [.frError] else []) := by
  obtain ⟨state, isSync, buf, n, target, total, ignored, resyncs⟩ := fr
  cases isSync <;> rfl

theorem mem_frError {fr : Framer} {e : Event} (h : e ∈ (frError fr).2) : e = .frError := by
  rw [frError_eq] at h
  dsimp only at h
  split at h
  · exact List.mem_singleton.mp h
  · cases h

/-- The bytes put back are the bytes held after the first, in order (R175). -/
theorem frResync_eq {fr : Framer} (hn : fr.n ≤ 269) :
    frResync fr =
      ⟨{ fr with
          state := .sof1, n := 0, target := 0, isSync := false
          resyncCount := if fr.isSync then fr.resyncCount + 1 else fr.resyncCount
          ignoredBytes := fr.ignoredBytes + 1 },
        if fr.isSync then [.frError] else [],
        (List.range (fr.n - 1)).map fun j => fr.byteAt (j + 1)⟩ := by
  have hreplay : fr.slice 1 (fr.n - 1) = (List.range (fr.n - 1)).map fun j => fr.byteAt (j + 1) := by
    rw [Framer.slice_eq_map (by omega)]
    simp only [Nat.add_comm]
  simp only [frResync, frError_eq, hreplay]
  rfl

/-- A byte before the candidate's last is only stored (R171). -/
theorem frStep_store_of_lt {crc : List Byte → BitVec 32} {fr : Framer} {b : Byte} (hs : fr.state = .store)
    (hn : fr.n + 1 < fr.target) : frStep crc fr b = quiet (fr.storeAt fr.n b) := by
  rw [frStep_of_store hs]
  exact if_pos hn

/-- The two checks of a complete candidate as one (R171). -/
def PassesChecks (crc : List Byte → BitVec 32) (fr : Framer) (b : Byte) : Prop :=
  b = sof1Byte ∧ crc (crcSpan (fr.storeAt fr.n b)) = receivedCrc (fr.storeAt fr.n b)

theorem byteAt_storeAt_last {fr : Framer} (b : Byte) (hn : fr.n + 1 = fr.target) (h269 : fr.target ≤ 269) :
    (fr.storeAt fr.n b).byteAt ((fr.storeAt fr.n b).target - 1) = b := by
  rw [Framer.storeAt_target, ← hn]
  exact fr.byteAt_storeAt_self b (by omega)

/-- The candidate's last byte delivers it when it passes both checks (R171, R174). -/
theorem frStep_store_of_passes {crc : List Byte → BitVec 32} {fr : Framer} {b : Byte} (hs : fr.state = .store)
    (hn : fr.n + 1 = fr.target) (h269 : fr.target ≤ 269) (h : PassesChecks crc fr b) :
    frStep crc fr b = frDispatch (fr.storeAt fr.n b) := by
  rw [frStep_of_store hs, stepStore, if_neg (by simp [hn]), byteAt_storeAt_last b hn h269,
    if_neg (not_not_intro h.1), if_neg (not_not_intro h.2)]

/-- The candidate's last byte gives it up when it fails one of the checks (R171). -/
theorem frStep_store_of_fails {crc : List Byte → BitVec 32} {fr : Framer} {b : Byte} (hs : fr.state = .store)
    (hn : fr.n + 1 = fr.target) (h269 : fr.target ≤ 269) (h : ¬ PassesChecks crc fr b) :
    frStep crc fr b = frResync (fr.storeAt fr.n b) := by
  rw [frStep_of_store hs, stepStore, if_neg (by simp [hn]), byteAt_storeAt_last b hn h269]
  by_cases hb : b = sof1Byte
  · rw [if_neg (not_not_intro hb), if_pos fun hcrc => h ⟨hb, hcrc⟩]
  · exact if_pos hb

/-- What one byte can do to any framer, whether it meets its invariant or not: the shapes of R164's rules. -/
inductive StepShape (fr : Framer) (b : Byte) : ScanStep → Prop where
  /-- The byte is ignored, with the error of R172. -/
  | skipped : StepShape fr b ⟨(frError fr).1.ignoreByte, (frError fr).2, []⟩
  /-- The byte is ignored as padding (R166). -/
  | padding : StepShape fr b (quiet fr.ignoreByte)
  /-- The byte is stored and the candidate goes on. -/
  | stored (i : Nat) (st : ParseState) (target : Nat) :
      StepShape fr b (quiet { fr.storeAt i b with state := st, target := target })
  /-- The byte is stored and the candidate is given up (R175). -/
  | givenUp (i : Nat) : StepShape fr b (frResync (fr.storeAt i b))
  /-- The byte is stored and the candidate is delivered (R174). -/
  | delivered (i : Nat) : StepShape fr b (frDispatch (fr.storeAt i b))

theorem frStep_shape (crc : List Byte → BitVec 32) (fr : Framer) (b : Byte) : StepShape fr b (frStep crc fr b) := by
  unfold frStep
  split
  · unfold stepSof1
    split
    · exact .stored 0 .sof2 fr.target
    · exact .skipped
  · unfold stepSof2
    split
    · exact .stored 1 .frameType fr.target
    · split
      · exact .padding
      · exact .givenUp 1
  · unfold stepFrameType
    dsimp only
    split
    · exact .stored 2 .dataHeader fr.target
    · split
      · exact .stored 2 .store (linkSize + 1)
      · exact .givenUp 2
  · unfold stepDataHeader
    dsimp only
    split
    · exact .stored fr.n fr.state fr.target
    · split
      · exact .givenUp fr.n
      · exact .stored fr.n .store _
  · unfold stepStore
    dsimp only
    split
    · exact .stored fr.n fr.state fr.target
    · split
      · exact .givenUp fr.n
      · split
        · exact .givenUp fr.n
        · exact .delivered fr.n

/-! ## The replay loop as a relation -/

section
variable {crc : List Byte → BitVec 32}

/-- A loop that empties its queue is a run of R161's loop. -/
theorem exists_scanRun_of_pending_eq_nil (k : Nat) :
    ∀ {fr : Framer} {q : List Byte}, (scan crc k fr q).pending = [] →
      ∃ j, ScanRun crc fr q (scan crc k fr q).framer (scan crc k fr q).events j := by
  induction k with
  | zero =>
    intro fr q h
    cases q with
    | nil => exact ⟨0, .done fr⟩
    | cons b q => cases h
  | succ k ih =>
    intro fr q h
    cases q with
    | nil => exact ⟨0, .done fr⟩
    | cons b q =>
      obtain ⟨j, hrun⟩ := ih (fr := (frStep crc fr b).framer) (q := (frStep crc fr b).replay ++ q) h
      exact ⟨j + 1, .step fr b q _ _ j hrun⟩

/-- The loop is deterministic. -/
theorem ScanRun.unique {fr fr1 fr2 : Framer} {q : List Byte} {es1 es2 : List Event} {k1 k2 : Nat}
    (h1 : ScanRun crc fr q fr1 es1 k1) (h2 : ScanRun crc fr q fr2 es2 k2) : fr1 = fr2 ∧ es1 = es2 := by
  induction h1 generalizing fr2 es2 k2 with
  | done fr => cases h2; exact ⟨rfl, rfl⟩
  | step fr b q fr1 es1 k1 _ ih =>
    cases h2 with
    | step _ _ _ _ es2 k2 hrest =>
      obtain ⟨rfl, rfl⟩ := ih hrest
      exact ⟨rfl, rfl⟩

/-- What stands behind in the queue waits: a run over joined queues is two runs. -/
theorem ScanRun.append {fr fr1 fr2 : Framer} {xs ys : List Byte} {es1 es2 : List Event} {k1 k2 : Nat}
    (h1 : ScanRun crc fr xs fr1 es1 k1) (h2 : ScanRun crc fr1 ys fr2 es2 k2) :
    ScanRun crc fr (xs ++ ys) fr2 (es1 ++ es2) (k1 + k2) := by
  induction h1 with
  | done fr => simpa using h2
  | step fr b q fr1 es1 k1 _ ih =>
    have hrest := ih h2
    rw [List.append_assoc] at hrest
    rw [List.append_assoc, Nat.add_right_comm]
    exact .step fr b (q ++ ys) fr2 _ _ hrest

/-- A byte that only moves the framer on is one step of a run. -/
theorem ScanRun.of_quiet {fr fr' : Framer} {b : Byte} (h : frStep crc fr b = quiet fr') :
    ScanRun crc fr [b] fr' [] 1 := by
  have hrun := ScanRun.step (crc := crc) fr b [] fr' [] 0
  rw [h] at hrun
  exact hrun (.done fr')

theorem sq_add_le_sq_add {m w : Nat} (h : m ≤ w) : m ^ 2 + w ≤ w ^ 2 + m := by
  obtain ⟨d, rfl⟩ := Nat.exists_eq_add_of_le h
  have hd := Nat.le_self_pow two_ne_zero d
  nlinarith

/-- Twice the steps left stay below `2·|q| + μ·(μ - 1)` for the measure μ of R177: a step without replay shortens the
queue, and a replay lowers μ, which bounds the queue after it. -/
theorem ScanRun.two_mul_steps_le {fr fr' : Framer} {q : List Byte} {es : List Event} {k : Nat}
    (h : ScanRun crc fr q fr' es k) : 2 * k + work fr q ≤ 2 * q.length + work fr q ^ 2 := by
  induction h with
  | done fr => simpa using Nat.le_self_pow two_ne_zero (work fr [])
  | step fr b q fr' es k _ ih =>
    have hqueue : ((frStep crc fr b).replay ++ q).length
        ≤ work (frStep crc fr b).framer ((frStep crc fr b).replay ++ q) := Nat.le_add_right _ _
    rw [List.length_cons]
    rcases frStep_measure crc fr b q with ⟨hnil, hle⟩ | hlt
    · rw [hnil, List.nil_append] at ih
      have hsquare := sq_add_le_sq_add hle
      omega
    · generalize work (frStep crc fr b).framer ((frStep crc fr b).replay ++ q) = m at *
      generalize work fr (b :: q) = w at *
      nlinarith

/-- R177's bound, from the measure: the queue is no longer than it. -/
theorem ScanRun.steps_le {fr fr' : Framer} {q : List Byte} {es : List Event} {k : Nat}
    (h : ScanRun crc fr q fr' es k) : k ≤ work fr q ^ 2 := by
  have hsteps := h.two_mul_steps_le
  have hqueue : q.length ≤ work fr q := Nat.le_add_right _ _
  have hsquare := Nat.le_self_pow two_ne_zero (work fr q)
  omega

end

/-- The framer with another count of received bytes. -/
def Framer.withTotal (fr : Framer) (v : Word64) : Framer := { fr with totalBytes := v }

@[simp] theorem Framer.withTotal_totalBytes (fr : Framer) (v : Word64) : (fr.withTotal v).totalBytes = v := rfl

/-- The scan of an `FR_RECV` is a run of the loop over the received bytes. -/
theorem recvScan_run (s : State) (data : List Byte) :
    ∃ k, ScanRun (frameCrc s.params.frameCrc)
      (s.framer.withTotal (s.framer.totalBytes + BitVec.ofNat 64 data.length)) data
      (recvScan s data).framer (recvScan s data).events k :=
  exists_scanRun_of_pending_eq_nil _ (recvScan_pending s data)

@[simp] theorem afterScan_params (s : State) (r : ScanResult) : (afterScan s r).params = s.params := rfl

/-- `afterScan` written out. -/
theorem afterScan_eq (s : State) (r : ScanResult) :
    afterScan s r = { s with framer := r.framer, responses := s.responses ++ [okResponse [] [] r.events] } := rfl

/-- A run of the loop over the received bytes is what `FR_RECV` answers. -/
theorem exec_frRecv_of_run {s : State} {data : List Byte} {fr' : Framer} {es : List Event} {k : Nat}
    (h : ScanRun (frameCrc s.params.frameCrc)
      (s.framer.withTotal (s.framer.totalBytes + BitVec.ofNat 64 data.length)) data fr' es k) :
    exec (.frRecv data) s = .next { s with framer := fr', responses := s.responses ++ [okResponse [] [] es] } := by
  obtain ⟨_, hscan⟩ := recvScan_run s data
  obtain ⟨rfl, rfl⟩ := h.unique hscan
  exact exec_frRecv_iff.mpr (afterScan_eq s (recvScan s data)).symm

/-- A framer that meets R42 holds what the measure of R177 counts. -/
theorem Framer.R42.weight_eq {fr : Framer} (h : fr.R42) : weight fr = fr.n := by
  obtain ⟨hsof1, hsof2, htype, hheader, hstore⟩ := h
  unfold weight
  cases hs : fr.state with
  | sof1 => have := hsof1 hs; dsimp only; omega
  | sof2 => have := hsof2 hs; dsimp only; omega
  | frameType => have := htype hs; dsimp only; omega
  | dataHeader => have := hheader hs; dsimp only; omega
  | store => have := (hstore hs).1; dsimp only; omega

/-- Settles O23: the scan is a run of the loop, whose steps its measure bounds. -/
theorem frRecvRunsTheReplayLoop : Obligations.FrRecvRunsTheReplayLoop := by
  refine ⟨fun s data => ?_, answersIllegal_of_classL 0 (by decide)⟩
  obtain ⟨k, hrun⟩ := recvScan_run s data
  refine ⟨_, _, k, hrun, fun h42 => ?_, exec_frRecv_of_run hrun⟩
  have hweight : weight (s.framer.withTotal (s.framer.totalBytes + BitVec.ofNat 64 data.length)) = s.framer.n :=
    Framer.R42.weight_eq h42
  have hsteps := hrun.steps_le
  rwa [work, hweight] at hsteps

/-! ## One error per desync episode -/

/-- The gate takes the events one by one. -/
theorem syncAfter_cons (sync : Bool) (e : Event) (es : List Event) :
    syncAfter sync (e :: es) = (syncAfter sync [e]).bind fun sync' => syncAfter sync' es := by
  cases e <;> cases sync <;> rfl

theorem syncAfter_append (es es' : List Event) :
    ∀ sync, syncAfter sync (es ++ es') = (syncAfter sync es).bind fun sync' => syncAfter sync' es' := by
  induction es with
  | nil => intro sync; rfl
  | cons e es ih =>
    intro sync
    rw [List.cons_append, syncAfter_cons, syncAfter_cons sync e es, Option.bind_assoc]
    exact congrArg _ (funext ih)

/-- A part of the scanner's loop keeps to R172's gate: its events agree with the sync flag and the resync counter. -/
def GateKept (fr : Framer) (es : List Event) (fr' : Framer) : Prop :=
  syncAfter fr.isSync es = some fr'.isSync ∧
    fr'.resyncCount = fr.resyncCount + BitVec.ofNat 64 (errorCount es)

theorem GateKept.trans {fr fr1 fr2 : Framer} {es es' : List Event} (h1 : GateKept fr es fr1)
    (h2 : GateKept fr1 es' fr2) : GateKept fr (es ++ es') fr2 := by
  obtain ⟨hsync1, hcount1⟩ := h1
  obtain ⟨hsync2, hcount2⟩ := h2
  refine ⟨by rw [syncAfter_append, hsync1, Option.bind_some, hsync2], ?_⟩
  rw [hcount2, hcount1, errorCount, errorCount, errorCount, List.count_append, BitVec.ofNat_add, BitVec.add_assoc]

/-- With no event, the sync flag and the resync counter are as before. -/
theorem gateKept_nil {fr fr' : Framer} (hsync : fr'.isSync = fr.isSync) (hcount : fr'.resyncCount = fr.resyncCount) :
    GateKept fr [] fr' :=
  ⟨congrArg some hsync.symm, hcount.trans (BitVec.add_zero _).symm⟩

/-- The gate itself: the error comes only while synchronised, and ends that (R172). -/
theorem gateKept_frError (fr : Framer) : GateKept fr (frError fr).2 (frError fr).1 := by
  unfold frError
  split
  next hsync => exact ⟨congrArg (syncAfter · [.frError]) hsync, rfl⟩
  next => exact gateKept_nil rfl rfl

/-- A delivered frame restores synchronisation (R174). -/
theorem gateKept_frDispatch (fr : Framer) : GateKept fr (frDispatch fr).events (frDispatch fr).framer := by
  have hframe : (frDispatch fr).events = [frameEvent fr] := rfl
  rw [hframe, frameEvent]
  split <;> exact ⟨by cases fr.isSync <;> rfl, (BitVec.add_zero _).symm⟩

/-- One byte keeps to the gate, whatever it does. -/
theorem StepShape.gateKept {fr : Framer} {b : Byte} {r : ScanStep} (h : StepShape fr b r) :
    GateKept fr r.events r.framer := by
  cases h with
  | skipped => exact gateKept_frError fr
  | padding => exact gateKept_nil rfl rfl
  | stored i st target => exact gateKept_nil rfl rfl
  | givenUp i => exact gateKept_frError (fr.storeAt i b)
  | delivered i => exact gateKept_frDispatch (fr.storeAt i b)

theorem ScanRun.gateKept {crc : List Byte → BitVec 32} {fr fr' : Framer} {q : List Byte} {es : List Event} {k : Nat}
    (h : ScanRun crc fr q fr' es k) : GateKept fr es fr' := by
  induction h with
  | done fr => exact gateKept_nil rfl rfl
  | step fr b q fr' es k _ ih => exact (frStep_shape crc fr b).gateKept.trans ih

/-- Settles O31: every byte of the loop keeps to the gate. -/
theorem oneErrorPerDesyncEpisode : Obligations.OneErrorPerDesyncEpisode := by
  intro s data t r h hr
  obtain rfl := exec_frRecv_iff.mp h
  rw [afterScan_responses] at hr
  obtain rfl : okResponse [] [] (recvScan s data).events = r := List.singleton_injective (List.append_cancel_left hr)
  obtain ⟨k, hrun⟩ := recvScan_run s data
  rw [afterScan_framer, okResponse_events]
  exact hrun.gateKept

/-! ## Split feeds -/

/-- A step's result with another count of received bytes. -/
def ScanStep.withTotal (r : ScanStep) (v : Word64) : ScanStep := { r with framer := r.framer.withTotal v }

theorem frError_withTotal (fr : Framer) (v : Word64) :
    frError (fr.withTotal v) = ((frError fr).1.withTotal v, (frError fr).2) := by
  simp only [frError_eq]
  rfl

theorem frResync_withTotal (fr : Framer) (v : Word64) : frResync (fr.withTotal v) = (frResync fr).withTotal v := by
  simp only [frResync, frError_withTotal]
  rfl

/-- No rule of the scanner reads the count of received bytes (R163). -/
theorem frStep_withTotal (crc : List Byte → BitVec 32) (fr : Framer) (b : Byte) (v : Word64) :
    frStep crc (fr.withTotal v) b = (frStep crc fr b).withTotal v := by
  have hstore (i : Nat) : (fr.withTotal v).storeAt i b = (fr.storeAt i b).withTotal v := rfl
  cases hs : fr.state with
  | sof1 =>
    rw [frStep_of_sof1 hs, frStep_of_sof1 (fr := fr.withTotal v) hs]
    simp only [stepSof1, frError_withTotal, apply_ite (ScanStep.withTotal · v)]
    rfl
  | sof2 =>
    rw [frStep_of_sof2 hs, frStep_of_sof2 (fr := fr.withTotal v) hs]
    simp only [stepSof2, hstore, frResync_withTotal, apply_ite (ScanStep.withTotal · v)]
    rfl
  | frameType =>
    rw [frStep_of_frameType hs, frStep_of_frameType (fr := fr.withTotal v) hs]
    simp only [stepFrameType, hstore, frResync_withTotal, apply_ite (ScanStep.withTotal · v)]
    rfl
  | dataHeader =>
    rw [frStep_of_dataHeader hs, frStep_of_dataHeader (fr := fr.withTotal v) hs]
    have hn : (fr.withTotal v).n = fr.n := rfl
    simp only [stepDataHeader, hstore, hn, frResync_withTotal, apply_ite (ScanStep.withTotal · v)]
    rfl
  | store =>
    rw [frStep_of_store hs, frStep_of_store (fr := fr.withTotal v) hs]
    have hn : (fr.withTotal v).n = fr.n := rfl
    simp only [stepStore, hstore, hn, frResync_withTotal, apply_ite (ScanStep.withTotal · v)]
    rfl

/-- The loop does the same from another count of received bytes, and carries that count along. -/
theorem ScanRun.withTotal {crc : List Byte → BitVec 32} {fr fr' : Framer} {q : List Byte} {es : List Event} {k : Nat}
    (h : ScanRun crc fr q fr' es k) (v : Word64) : ScanRun crc (fr.withTotal v) q (fr'.withTotal v) es k := by
  induction h with
  | done fr => exact .done _
  | step fr b q fr' es k _ ih =>
    have hrun := ScanRun.step (crc := crc) (fr.withTotal v) b q (fr'.withTotal v) es k
    rw [frStep_withTotal] at hrun
    exact hrun ih

/-- The loop counts no bytes; the command did (R163). -/
theorem ScanRun.totalBytes_eq {crc : List Byte → BitVec 32} {fr fr' : Framer} {q : List Byte} {es : List Event}
    {k : Nat} (h : ScanRun crc fr q fr' es k) : fr'.totalBytes = fr.totalBytes := by
  have hsame : fr' = fr'.withTotal fr.totalBytes := (h.unique (h.withTotal fr.totalBytes)).1
  rw [hsame, Framer.withTotal_totalBytes]

/-- Two scans, one after the other, are the scan of the joined bytes. -/
theorem recvScan_append (s : State) (xs ys : List Byte) :
    (recvScan s (xs ++ ys)).framer = (recvScan (afterScan s (recvScan s xs)) ys).framer ∧
      (recvScan s (xs ++ ys)).events =
        (recvScan s xs).events ++ (recvScan (afterScan s (recvScan s xs)) ys).events := by
  obtain ⟨_, hboth⟩ := recvScan_run s (xs ++ ys)
  obtain ⟨_, hfirst⟩ := recvScan_run s xs
  obtain ⟨_, hsecond⟩ := recvScan_run (afterScan s (recvScan s xs)) ys
  have hcount : (recvScan s xs).framer.totalBytes + BitVec.ofNat 64 ys.length =
      s.framer.totalBytes + BitVec.ofNat 64 (xs ++ ys).length := by
    rw [hfirst.totalBytes_eq, Framer.withTotal_totalBytes, List.length_append, BitVec.ofNat_add, BitVec.add_assoc]
  rw [afterScan_params, afterScan_framer, hcount] at hsecond
  exact hboth.unique ((hfirst.withTotal _).append hsecond)

/-- Settles O33: the three commands complete with their scans. -/
theorem splitFeedInvariance : Obligations.SplitFeedInvariance := by
  intro s xs ys
  obtain ⟨hframer, hevents⟩ := recvScan_append s xs ys
  refine ⟨_, _, _, _, _, exec_frRecv_iff.mpr rfl, afterScan_responses _ _, exec_frRecv_iff.mpr rfl,
    afterScan_responses _ _, exec_frRecv_iff.mpr rfl, ?_, ?_⟩
  · rw [afterScan_responses, hevents]
  · rw [afterScan_framer, afterScan_framer, hframer]

/-! ## The header rules, by what the byte is -/

section
variable {crc : List Byte → BitVec 32} {fr : Framer} {b : Byte}

theorem frStep_frameType_of_data (hs : fr.state = .frameType) (ht : frameTypeOf b = typeData) :
    frStep crc fr b = quiet { fr.storeAt 2 b with state := .dataHeader } :=
  (frStep_of_frameType hs).trans (if_pos ht)

theorem frStep_frameType_of_link (hs : fr.state = .frameType) (ht : isLinkType (frameTypeOf b) = true) :
    frStep crc fr b = quiet { fr.storeAt 2 b with target := linkSize + 1, state := .store } :=
  (frStep_of_frameType hs).trans ((if_neg (ne_typeData_of_isLinkType ht)).trans (if_pos ht))

theorem frStep_frameType_of_other (hs : fr.state = .frameType) (hdata : frameTypeOf b ≠ typeData)
    (hlink : ¬ isLinkType (frameTypeOf b) = true) : frStep crc fr b = frResync (fr.storeAt 2 b) :=
  (frStep_of_frameType hs).trans ((if_neg hdata).trans (if_neg hlink))

theorem frStep_dataHeader_of_lt (hs : fr.state = .dataHeader) (hn : fr.n < 5) :
    frStep crc fr b = quiet (fr.storeAt fr.n b) :=
  (frStep_of_dataHeader hs).trans (if_pos (Nat.succ_lt_succ hn))

/-- The sixth byte is the length CRC of the fifth, or the candidate is given up (R170). -/
theorem frStep_dataHeader_of_eq (hs : fr.state = .dataHeader) (hn : fr.n = 5) :
    frStep crc fr b =
      if b = lenCrc (fr.byteAt 4) then
        quiet { fr.storeAt fr.n b with target := (fr.byteAt 4).toNat + 14, state := .store }
      else frResync (fr.storeAt fr.n b) := by
  have h4 : (fr.storeAt fr.n b).byteAt 4 = fr.byteAt 4 := Framer.byteAt_storeAt_of_lt b (by omega)
  have h5 : (fr.storeAt fr.n b).byteAt 5 = b := hn ▸ fr.byteAt_storeAt_self b (by omega)
  rw [frStep_of_dataHeader hs, stepDataHeader, if_neg (by simp [hn]), h4, h5]
  exact ite_not ..

end

/-! ## A constructed frame, received -/

/-- The framer is in a parse state and holds exactly these bytes. -/
structure Framer.Holds (fr : Framer) (st : ParseState) (xs : List Byte) : Prop where
  /-- The parse state. -/
  state_eq : fr.state = st
  /-- The number of bytes held. -/
  n_eq : fr.n = xs.length
  /-- The bytes held, in order. -/
  slice_eq : fr.slice 0 fr.n = xs

section
variable {fr : Framer} {st : ParseState} {xs : List Byte} (h : fr.Holds st xs)
include h

/-- Storing the next byte holds one more. -/
theorem Framer.Holds.storeAt (hlen : xs.length < 269) (b : Byte) : (fr.storeAt fr.n b).Holds st (xs ++ [b]) :=
  ⟨h.state_eq, by simp [h.n_eq], (Framer.slice_storeAt_n b (h.n_eq ▸ hlen)).trans (congrArg (· ++ [b]) h.slice_eq)⟩

theorem Framer.Holds.setParse (st' : ParseState) (target : Nat) :
    Framer.Holds { fr with state := st', target := target } st' xs :=
  ⟨rfl, h.n_eq, h.slice_eq⟩

theorem Framer.Holds.byteAt_eq (hlen : xs.length ≤ 269) {i : Nat} (hi : i < xs.length) : fr.byteAt i = xs[i] := by
  have hmap : fr.slice 0 fr.n = _ := Framer.slice_eq_map (by rw [h.n_eq]; omega)
  rw [h.slice_eq] at hmap
  simp [hmap]

end

section
variable {crc : List Byte → BitVec 32} {fr : Framer} {x y : Byte} {xs ys body : List Byte}

/-- The two start bytes, from either search state: what was held before is overwritten, or is padding (R165, R166). -/
theorem exists_run_of_startBytes (hs : fr.state = .sof1 ∨ fr.state = .sof2) :
    ∃ fr' x k, ScanRun crc fr [sof1Byte, sof2Byte] fr' [] k ∧ fr'.Holds .frameType [x, sof2Byte] := by
  have hfirst : ∃ fr1, frStep crc fr sof1Byte = quiet fr1 ∧ fr1.state = .sof2 := by
    rcases hs with hs | hs
    · exact ⟨_, (frStep_of_sof1 hs).trans (if_pos rfl), rfl⟩
    · exact ⟨fr.ignoreByte, (frStep_of_sof2 hs).trans ((if_neg (by decide)).trans (if_pos rfl)), hs⟩
  obtain ⟨fr1, hstep, hs1⟩ := hfirst
  have hsecond : frStep crc fr1 sof2Byte = quiet { fr1.storeAt 1 sof2Byte with state := .frameType } :=
    (frStep_of_sof2 hs1).trans (if_pos rfl)
  have hslice : (fr1.storeAt 1 sof2Byte).slice 0 2 = [fr1.byteAt 0, sof2Byte] := by
    rw [Framer.slice_eq_map (by omega)]
    simp [List.range_succ, Framer.byteAt_storeAt_ne, Framer.byteAt_storeAt_self]
  exact ⟨_, fr1.byteAt 0, _, (ScanRun.of_quiet hstep).append (.of_quiet hsecond), rfl, rfl, hslice⟩

/-- One byte of a data header before its length CRC (R169). -/
theorem Framer.Holds.exists_run_of_headerByte (h : fr.Holds .dataHeader xs) (hlen : xs.length < 5) (b : Byte) :
    ∃ fr', ScanRun crc fr [b] fr' [] 1 ∧ fr'.Holds .dataHeader (xs ++ [b]) :=
  ⟨_, .of_quiet (frStep_dataHeader_of_lt h.state_eq (h.n_eq ▸ hlen)), h.storeAt (by omega) b⟩

/-- A data frame's header through its length CRC, which fixes the candidate's length (R167 to R170). -/
theorem Framer.Holds.exists_run_of_dataHeader (h : fr.Holds .frameType [x, y]) (id : BitVec 11) (len : Byte) :
    ∃ fr' k, ScanRun crc fr [typeIdByte typeData id, idByte id, len, lenCrc len] fr' [] k ∧
      fr'.Holds .store ([x, y] ++ [typeIdByte typeData id, idByte id, len, lenCrc len]) ∧
      fr'.target = len.toNat + 14 := by
  have htype : frameTypeOf (typeIdByte typeData id) = typeData := (typeIdByte_idByte_eq_iff.mp ⟨rfl, rfl⟩).1.symm
  have hfirst := frStep_frameType_of_data (crc := crc) h.state_eq htype
  rw [show 2 = fr.n from h.n_eq.symm] at hfirst
  have hold1 := (h.storeAt (by simp) (typeIdByte typeData id)).setParse .dataHeader fr.target
  obtain ⟨fr2, hrun2, hold2⟩ := hold1.exists_run_of_headerByte (crc := crc) (by simp) (idByte id)
  obtain ⟨fr3, hrun3, hold3⟩ := hold2.exists_run_of_headerByte (crc := crc) (by simp) len
  have hlen : fr3.byteAt 4 = len := hold3.byteAt_eq (by simp) (by simp)
  have hlast := frStep_dataHeader_of_eq (crc := crc) (b := lenCrc len) hold3.state_eq hold3.n_eq
  rw [hlen, if_pos rfl] at hlast
  refine ⟨_, _, (((ScanRun.of_quiet hfirst).append hrun2).append hrun3).append (.of_quiet hlast), ?_, rfl⟩
  exact (hold3.storeAt (by simp) (lenCrc len)).setParse .store _

/-- A link frame's type byte, which fixes the candidate's length (R167, R168). -/
theorem Framer.Holds.exists_run_of_linkHeader (h : fr.Holds .frameType [x, y]) {t : BitVec 5} (ht : isLinkType t = true)
    (id : BitVec 11) :
    ∃ fr' k, ScanRun crc fr [typeIdByte t id] fr' [] k ∧ fr'.Holds .store ([x, y] ++ [typeIdByte t id]) ∧
      fr'.target = linkSize + 1 := by
  have htype : t = frameTypeOf (typeIdByte t id) := (typeIdByte_idByte_eq_iff.mp ⟨rfl, rfl⟩).1
  have hstep := frStep_frameType_of_link (crc := crc) h.state_eq (htype ▸ ht)
  rw [show 2 = fr.n from h.n_eq.symm] at hstep
  exact ⟨_, _, .of_quiet hstep, (h.storeAt (by simp) _).setParse .store _, rfl⟩

/-- The bytes of a candidate up to its EOF are stored one by one (R171). -/
theorem Framer.Holds.exists_run_of_store (h : fr.Holds .store xs) (hlen : xs.length + ys.length < fr.target)
    (h269 : fr.target ≤ 269) :
    ∃ fr' k, ScanRun crc fr ys fr' [] k ∧ fr'.Holds .store (xs ++ ys) ∧ fr'.target = fr.target := by
  induction ys generalizing fr xs with
  | nil => exact ⟨fr, 0, .done fr, by rwa [List.append_nil], rfl⟩
  | cons b ys ih =>
    rw [List.length_cons] at hlen
    have hstep : frStep crc fr b = quiet (fr.storeAt fr.n b) :=
      frStep_store_of_lt h.state_eq (by rw [h.n_eq]; omega)
    have hstored := h.storeAt (by omega) b
    obtain ⟨fr', k, hrun, hold, htarget⟩ := ih hstored (by simp; omega) h269
    rw [List.append_assoc] at hold
    exact ⟨fr', _, (ScanRun.of_quiet hstep).append hrun, hold, htarget⟩

/-- A complete candidate whose bytes are known has the span and the CRC they say. -/
theorem Framer.Holds.crcSpan_receivedCrc_eq {st : ParseState} {c : BitVec 32} {e : Byte}
    (h : fr.Holds st ([x, y] ++ body ++ le32 c ++ [e])) (hbody : 2 ≤ body.length)
    (htarget : fr.target = body.length + 7) (h269 : fr.target ≤ 269) :
    crcSpan fr = body ∧ receivedCrc fr = c := by
  have hspan : (crcSpan fr).length = body.length := by
    rw [crcSpan, Framer.slice_length (by omega)]
    omega
  have hparts := slice_target_eq (fr := fr) (by omega) h269
  rw [show fr.target = fr.n by simp [h.n_eq, htarget, length_le32], h.slice_eq] at hparts
  obtain ⟨hfront, -⟩ := List.append_inj' hparts rfl
  obtain ⟨hsof, hcrc⟩ := List.append_inj' hfront rfl
  obtain ⟨-, hspanEq⟩ := List.append_inj hsof rfl
  exact ⟨hspanEq.symm, (le32_eq_iff.mp hcrc.symm).trans (le32_eq_iff.mp rfl).symm⟩

/-- From the header on, a frame sealed over `body` is delivered with its last byte. -/
theorem Framer.Holds.exists_run_of_sealed (h : fr.Holds .store xs)
    (hframe : xs ++ ys = [x, y] ++ body ++ le32 (crc body)) (hbody : 2 ≤ body.length)
    (htarget : fr.target = body.length + 7) (h269 : fr.target ≤ 269) :
    ∃ full k, full.target = fr.target ∧ crcSpan full = body ∧
      ScanRun crc fr (ys ++ [sof1Byte]) (frDispatch full).framer [frameEvent full] k := by
  have hlen : xs.length + ys.length = body.length + 6 := by
    rw [← List.length_append, hframe]
    simp [length_le32]
  obtain ⟨fr1, k, hrun, hold, htarget1⟩ := h.exists_run_of_store (crc := crc) (ys := ys) (by omega) h269
  have hn : fr1.n + 1 = fr1.target := by rw [hold.n_eq, List.length_append]; omega
  have hstored := hold.storeAt (by rw [List.length_append]; omega) sof1Byte
  rw [hframe] at hstored
  obtain ⟨hspan, hcrc⟩ := hstored.crcSpan_receivedCrc_eq hbody (htarget1.trans htarget) (htarget1.trans_le h269)
  have hlast : frStep crc fr1 sof1Byte = frDispatch (fr1.storeAt fr1.n sof1Byte) :=
    frStep_store_of_passes hold.state_eq hn (htarget1.trans_le h269) ⟨rfl, by rw [hspan, hcrc]⟩
  have hdelivered := ScanRun.step (crc := crc) fr1 sof1Byte [] (frDispatch (fr1.storeAt fr1.n sof1Byte)).framer [] 0
  rw [hlast] at hdelivered
  exact ⟨fr1.storeAt fr1.n sof1Byte, _, htarget1, hspan, hrun.append (hdelivered (.done _))⟩

/-- From either search state, the bytes of a data frame run to its delivery. -/
theorem exists_run_of_dataFrame (hs : fr.state = .sof1 ∨ fr.state = .sof2) (id : BitVec 11) (md : BitVec 16)
    {payload : List Byte} (h1 : 1 ≤ payload.length) (h256 : payload.length ≤ 256) :
    ∃ full k, ScanRun crc fr (sealFrame crc (dataBody id md payload)) (frDispatch full).framer
      [.frData id md payload] k := by
  obtain ⟨fr1, x, k1, hrun1, hold1⟩ := exists_run_of_startBytes (crc := crc) hs
  obtain ⟨fr2, k2, hrun2, hold2, htarget⟩ :=
    hold1.exists_run_of_dataHeader (crc := crc) id (BitVec.ofNat 8 (payload.length - 1))
  have hbody : (dataBody id md payload).length = payload.length + 6 := by
    simp [dataBody, length_le16]
    omega
  rw [BitVec.toNat_ofNat] at htarget
  obtain ⟨full, k3, htarget3, hspan, hrun3⟩ := hold2.exists_run_of_sealed (crc := crc) (x := x)
    (y := sof2Byte) (ys := le16 md ++ payload ++ le32 (crc (dataBody id md payload))) (body := dataBody id md payload)
    (by simp [dataBody]) (by omega) (by omega) (by omega)
  rw [frameEvent_of_dataBody (by omega) (by omega) hspan] at hrun3
  have hrun := (hrun1.append hrun2).append hrun3
  exact ⟨full, _, by simpa [sealFrame, dataBody] using hrun⟩

/-- From either search state, the bytes of a link frame run to its delivery. -/
theorem exists_run_of_linkFrame (hs : fr.state = .sof1 ∨ fr.state = .sof2) {t : BitVec 5} (ht : isLinkType t = true)
    (id : BitVec 11) :
    ∃ full k, ScanRun crc fr (sealFrame crc (linkBody t id)) (frDispatch full).framer [.frLink t id] k := by
  obtain ⟨fr1, x, k1, hrun1, hold1⟩ := exists_run_of_startBytes (crc := crc) hs
  obtain ⟨fr2, k2, hrun2, hold2, htarget⟩ := hold1.exists_run_of_linkHeader (crc := crc) ht id
  obtain ⟨full, k3, htarget3, hspan, hrun3⟩ := hold2.exists_run_of_sealed (crc := crc)
    (ys := [idByte id] ++ le32 (crc (linkBody t id))) (body := linkBody t id) rfl le_rfl htarget
    (by rw [htarget]; decide)
  rw [frameEvent_of_linkBody (htarget3.trans htarget) (ne_typeData_of_isLinkType ht) hspan] at hrun3
  exact ⟨full, _, (hrun1.append hrun2).append hrun3⟩

end

/-! ## The constructors and the round trips -/

section
variable {s : State} {a : BitVec 8} {frameId metadata : Word64} {data : List Byte}

theorem frConstructData_check_iff :
    (inRange frameId frameIdMax && inRange metadata 0xFFFF && decide (1 ≤ data.length) &&
        decide (data.length ≤ payloadMax)) = true ↔ OperandsLegal (.frConstructData frameId metadata data) := by
  simp only [Bool.and_eq_true, decide_eq_true_eq, inRange_iff, and_assoc]
  rfl

theorem frConstructLink_check_iff :
    (linkTypeInRange a && inRange frameId frameIdMax) = true ↔ OperandsLegal (.frConstructLink a frameId) := by
  simp [linkTypeInRange_iff, inRange_iff, OperandsLegal, frameIdMax]

theorem exec_frConstructData_of_legal (h : OperandsLegal (.frConstructData frameId metadata data)) :
    exec (.frConstructData frameId metadata data) s = .next (answered s (okResponse []
      (sealFrame (frameCrc s.params.frameCrc) (dataBody (frameId.setWidth 11) (metadata.setWidth 16) data)) [])) :=
  if_pos (frConstructData_check_iff.mpr h)

theorem exec_frConstructData_of_illegal (h : ¬ OperandsLegal (.frConstructData frameId metadata data)) :
    exec (.frConstructData frameId metadata data) s = .next (answered s (failedResponse .paramInvalid 0)) :=
  if_neg (mt frConstructData_check_iff.mp h)

theorem exec_frConstructLink_of_legal (h : OperandsLegal (.frConstructLink a frameId)) :
    exec (.frConstructLink a frameId) s = .next (answered s (okResponse []
      (sealFrame (frameCrc s.params.frameCrc) (linkBody (a.setWidth 5) (frameId.setWidth 11))) [])) :=
  if_pos (frConstructLink_check_iff.mpr h)

theorem exec_frConstructLink_of_illegal (h : ¬ OperandsLegal (.frConstructLink a frameId)) :
    exec (.frConstructLink a frameId) s = .next (answered s (failedResponse .paramInvalid 0)) :=
  if_neg (mt frConstructLink_check_iff.mp h)

end

theorem isLinkType_setWidth {a : BitVec 8} (h : IsLinkType a) : isLinkType (a.setWidth 5) = true := by
  rcases h with rfl | rfl | rfl | rfl | rfl <;> decide

/-- Settles O34: the constructor's bytes run to the delivery of their frame. -/
theorem dataFrameRoundTrip : Obligations.DataFrameRoundTrip := by
  intro s frameId metadata payload hs hid hmd h1 h256
  obtain ⟨full, k, hrun⟩ := exists_run_of_dataFrame (crc := frameCrc s.params.frameCrc)
    (fr := s.framer.withTotal (s.framer.totalBytes + _)) hs (frameId.setWidth 11) (metadata.setWidth 16) h1 h256
  rw [BitVec.ofNat_toNat, BitVec.ofNat_toNat]
  exact ⟨_, _, exec_frConstructData_of_legal ⟨hid, hmd, h1, h256⟩, exec_frRecv_of_run hrun, rfl, rfl, rfl, rfl⟩

/-- Settles O35: the constructor's bytes run to the delivery of their frame. -/
theorem linkFrameRoundTrip : Obligations.LinkFrameRoundTrip := by
  intro s a frameId hs ha hid
  obtain ⟨full, k, hrun⟩ := exists_run_of_linkFrame (crc := frameCrc s.params.frameCrc)
    (fr := s.framer.withTotal (s.framer.totalBytes + _)) hs (isLinkType_setWidth ha) (frameId.setWidth 11)
  rw [BitVec.ofNat_toNat, BitVec.ofNat_toNat]
  exact ⟨_, _, exec_frConstructLink_of_legal ⟨ha, hid⟩, exec_frRecv_of_run hrun, rfl, rfl, rfl, rfl⟩

/-- Settles O36: either reset leaves the scanner in SOF1, from where the round trips start. -/
theorem frameAcceptedAfterReset : Obligations.FrameAcceptedAfterReset := by
  intro s u i hreset hi hlegal
  have hsof1 : u.framer.state = .sof1 := by
    rcases hreset with h | ⟨rest, hport, h⟩
    · cases h; rfl
    · rw [step_of_globalReset hport] at h; cases h; rfl
  rcases hi with ⟨frameId, metadata, data, rfl⟩ | ⟨a, frameId, rfl⟩
  · obtain ⟨hid, hmd, h1, h256⟩ := hlegal
    obtain ⟨out, t, hout, hrecv, hresp, -⟩ := dataFrameRoundTrip u frameId metadata data (.inl hsof1) hid hmd h1 h256
    exact ⟨out, t, _, hout, hrecv, hresp, by simp⟩
  · obtain ⟨ha, hid⟩ := hlegal
    obtain ⟨out, t, hout, hrecv, hresp, -⟩ := linkFrameRoundTrip u a frameId (.inl hsof1) ha hid
    exact ⟨out, t, _, hout, hrecv, hresp, by simp⟩

/-! ## Delivered frames are encodings -/

/-- An event that is no error comes only with the last byte of a candidate that passes both checks (R171, R174). -/
theorem exists_passes_of_mem_frStep {crc : List Byte → BitVec 32} {fr : Framer} {b : Byte} {event : Event}
    (h : fr.Inv) (hmem : event ∈ (frStep crc fr b).events) (hne : event ≠ .frError) :
    fr.state = .store ∧ fr.n + 1 = fr.target ∧ PassesChecks crc fr b ∧ event = frameEvent (fr.storeAt fr.n b) := by
  have heffect := frStep_effect crc b h
  generalize hr : frStep crc fr b = r at hmem heffect
  cases heffect with
  | skipped => exact absurd (mem_frError hmem) hne
  | padding => cases hmem
  | held => cases hmem
  | givenUp => exact absurd (mem_frError (fr := fr.storeAt fr.n b) hmem) hne
  | delivered hs hn =>
    have h269 : fr.target ≤ 269 := by have := h.n_lt; omega
    refine ⟨hs, hn, ?_, List.mem_singleton.mp hmem⟩
    by_contra hfails
    rw [frStep_store_of_fails hs hn h269 hfails] at hr
    exact absurd (congrArg (fun r => r.framer.n) hr) Nat.zero_ne_one

/-- The bytes held and the last byte of a candidate that passes both checks are its span, sealed (R100, R101). -/
theorem map_byteAt_append_eq_sealFrame {crc : List Byte → BitVec 32} {fr : Framer} {b : Byte} (h : fr.Inv)
    (hs : fr.state = .store) (hn : fr.n + 1 = fr.target) (h9 : 9 ≤ fr.target) (hpass : PassesChecks crc fr b) :
    (List.range fr.n).map fr.byteAt ++ [b] = sealFrame crc (crcSpan (fr.storeAt fr.n b)) := by
  obtain ⟨hb, hcrc⟩ := hpass
  obtain ⟨⟨-, h0, h1⟩, -⟩ := (Framer.inv_iff_of_store hs).mp h
  have hlt := h.n_lt
  have hheld : fr.slice 0 fr.n = (List.range fr.n).map fr.byteAt := by
    rw [Framer.slice_eq_map (by omega)]
    simp
  have hlast := byteAt_storeAt_last b hn (by omega)
  have h0' : (fr.storeAt fr.n b).byteAt 0 = sof1Byte := (Framer.byteAt_storeAt_of_lt b (by omega)).trans h0
  have h1' : (fr.storeAt fr.n b).byteAt 1 = sof2Byte := (Framer.byteAt_storeAt_of_lt b (by omega)).trans h1
  calc (List.range fr.n).map fr.byteAt ++ [b]
      = (fr.storeAt fr.n b).slice 0 (fr.storeAt fr.n b).target := by
        rw [← hheld, ← Framer.slice_storeAt_n b hlt, hn, Framer.storeAt_target]
    _ = sealFrame crc (crcSpan (fr.storeAt fr.n b)) := by
        rw [slice_target_eq (fr := fr.storeAt fr.n b) h9 (by simp only [Framer.storeAt_target]; omega), h0', h1', hlast,
          sealFrame, hcrc, hb]

/-- Settles O37: the span of a delivered candidate is the body of the frame its event tells. -/
theorem deliveredFramesAreEncodings : Obligations.DeliveredFramesAreEncodings := by
  intro crc fr b event hinv hmem hne
  obtain ⟨hs, hn, hpass, rfl⟩ := exists_passes_of_mem_frStep hinv hmem hne
  have hlt := hinv.n_lt
  have hkeep {i} (hi : i < fr.n) : (fr.storeAt fr.n b).byteAt i = fr.byteAt i := Framer.byteAt_storeAt_of_lt b hi
  have htarget : (fr.storeAt fr.n b).target = fr.target := rfl
  obtain ⟨-, ⟨ht, h6, hlen, hcrc⟩ | ⟨hlink, h3, hlen⟩⟩ := (Framer.inv_iff_of_store hs).mp hinv
  · have hpayload : ((fr.storeAt fr.n b).slice 8 (fr.target - 13)).length = (fr.byteAt 4).toNat + 1 := by
      rw [Framer.slice_length (by omega)]
      omega
    refine ⟨_, map_byteAt_append_eq_sealFrame hinv hs hn (by omega) hpass, .inl ?_⟩
    refine ⟨_, _, _, if_pos (by rwa [hkeep (by omega)]), by rw [htarget]; omega, by rw [htarget]; omega, ?_⟩
    refine (crcSpan_eq_dataBody_iff (by omega) (by omega)).mpr ⟨⟨?_, rfl⟩, ⟨?_, ?_⟩, rfl, rfl⟩
    · rw [hkeep (by omega), ht]
    · rw [htarget, hpayload, hkeep (by omega), Nat.add_sub_cancel, BitVec.ofNat_toNat, BitVec.setWidth_eq]
    · rw [hkeep (by omega), hkeep (by omega), hcrc]
  · refine ⟨_, map_byteAt_append_eq_sealFrame hinv hs hn (by simp [hlen, linkSize]) hpass, .inr ?_⟩
    refine ⟨_, _, if_neg ?_, ?_, (crcSpan_eq_linkBody_iff (fr := fr.storeAt fr.n b) hlen).mpr ⟨rfl, rfl⟩⟩
    · rw [hkeep (by omega)]
      exact ne_typeData_of_isLinkType hlink
    · rwa [hkeep (by omega)]

/-! ## The scanner's rules as the spec writes them -/

/-- Settles O29: the gate's fields and the replay, both written out. -/
theorem resyncReplaysHeldBytes : Obligations.ResyncReplaysHeldBytes := fun _ _ hn => frResync_eq hn

/-- Settles O26, branch by branch of R165 and R166. -/
theorem scannerSearchStates : Obligations.ScannerSearchStates := by
  intro crc fr b lost errors
  refine ⟨fun hs hb => ?_, fun hs hb => ?_, fun hs hb => ?_, fun hs hb => ?_, fun hs hb0 hb => ?_⟩
  · rw [frStep_of_sof1 hs, stepSof1, if_pos (by exact hb), fr.storeAt_eq_set b (by omega)]
    rfl
  · rw [frStep_of_sof1 hs, stepSof1, if_neg (by exact hb), frError_eq]
    rfl
  · rw [frStep_of_sof2 hs, stepSof2, if_pos (by exact hb), fr.storeAt_eq_set b (by omega)]
    rfl
  · subst hb
    rw [frStep_of_sof2 hs, stepSof2, if_neg (by decide), if_pos (by rfl)]
    rfl
  · have hreplay : (List.range ((fr.storeAt 1 b).n - 1)).map (fun j => (fr.storeAt 1 b).byteAt (j + 1)) = [b] :=
      congrArg ([·]) (fr.byteAt_storeAt_self b (by omega))
    rw [frStep_of_sof2 hs, stepSof2, if_neg (by exact hb0), if_neg (by exact hb), frResync_eq (by simp), hreplay,
      fr.storeAt_eq_set b (by omega)]

/-- Settles O27, branch by branch of R167 to R170. -/
theorem scannerHeaderStates : Obligations.ScannerHeaderStates := by
  intro crc fr b
  refine ⟨fun hs => ?_, fun hs => ?_⟩
  · intro fr1 t
    have hfr1 : fr.storeAt 2 b = fr1 := fr.storeAt_eq_set b (by omega)
    rw [← hfr1]
    have hdata : frameTypeOf b = typeData ↔ t = 0 := frameTypeOf_eq_typeData_iff
    have hlink : isLinkType (frameTypeOf b) = true ↔ t = 0x0F ∨ t = 0x17 ∨ t = 0x1B ∨ t = 0x1D ∨ t = 0x1E := by
      rw [isLinkType_iff, toNat_frameTypeOf]
    exact ⟨fun ht => frStep_frameType_of_data hs (hdata.mpr ht), fun ht => frStep_frameType_of_link hs (hlink.mpr ht),
      fun ht ht' => frStep_frameType_of_other hs (mt hdata.mp ht) (mt hlink.mp ht')⟩
  · exact ⟨frStep_dataHeader_of_lt hs, fun hn hb => (frStep_dataHeader_of_eq hs hn).trans (if_pos hb),
      fun hn hb => (frStep_dataHeader_of_eq hs hn).trans (if_neg hb)⟩

/-- The lengths a candidate can have in `STORE`, under R42 alone. -/
theorem Framer.R42.target_of_store {fr : Framer} (h : fr.R42) (hs : fr.state = .store) :
    fr.n < fr.target ∧ (9 ≤ fr.target ∧ fr.target ≤ 269) ∧ (frameTypeOf (fr.byteAt 2) = typeData → 14 ≤ fr.target) := by
  obtain ⟨-, -, -, -, hstore⟩ := h
  obtain ⟨⟨-, hlt, h269⟩, -, htarget⟩ := hstore hs
  split at htarget
  next => exact ⟨hlt, ⟨by omega, h269⟩, fun _ => by omega⟩
  next hlink => exact ⟨hlt, ⟨htarget.ge, h269⟩, fun hdata => absurd hdata hlink⟩

/-- The event of a complete candidate as R174 gives it, in numbers. -/
theorem frameEvent_eq (fr : Framer) :
    frameEvent fr =
      if (fr.byteAt 2).toNat / 8 = 0 then
        .frData (BitVec.ofNat 11 (256 * ((fr.byteAt 2).toNat % 8) + (fr.byteAt 3).toNat))
          (BitVec.ofNat 16 ((fr.byteAt 6).toNat + 256 * (fr.byteAt 7).toNat)) (fr.slice 8 (fr.target - 13))
      else .frLink (BitVec.ofNat 5 ((fr.byteAt 2).toNat / 8))
        (BitVec.ofNat 11 (256 * ((fr.byteAt 2).toNat % 8) + (fr.byteAt 3).toNat)) := by
  rw [frameEvent, ← frameIdOf_eq_ofNat, ← ofLe16_eq_ofNat, ← frameTypeOf_eq_ofNat]
  exact if_congr frameTypeOf_eq_typeData_iff rfl rfl

/-- Settles O28: the checks and the event read only bytes held before the last one. -/
theorem scannerStoreState : Obligations.ScannerStoreState := by
  intro crc fr b h42 hs fr1 bytes at' good id event
  obtain ⟨hlt, ⟨h9, h269⟩, h14⟩ := h42.target_of_store hs
  have hkeep {i} (hi : i < fr.n) : (fr.storeAt fr.n b).byteAt i = fr.byteAt i := Framer.byteAt_storeAt_of_lt b hi
  have hslice {i len : Nat} (h : i + len ≤ fr.n) : (fr.storeAt fr.n b).slice i len = bytes i len := by
    rw [Framer.slice_storeAt_of_le b h (by omega), Framer.slice_eq_map (by omega)]
  have hgood (hn : fr.n + 1 = fr.target) : PassesChecks crc fr b ↔ good := by
    have hspan : crcSpan (fr.storeAt fr.n b) = bytes 2 (fr.target - 7) := by
      rw [crcSpan, Framer.storeAt_target]
      exact hslice (by omega)
    refine and_congr Iff.rfl ?_
    rw [hspan, ← BitVec.toNat_inj, receivedCrc, toNat_ofLe32, Framer.storeAt_target, hkeep (by omega),
      hkeep (by omega), hkeep (by omega), hkeep (by omega)]
  have hevent (hn : fr.n + 1 = fr.target) : frameEvent (fr.storeAt fr.n b) = event := by
    rw [frameEvent_eq, hkeep (i := 2) (by omega), hkeep (i := 3) (by omega)]
    by_cases hdata : at' 2 / 8 = 0
    · have := h14 (frameTypeOf_eq_typeData_iff.mpr hdata)
      rw [hkeep (i := 6) (by omega), hkeep (i := 7) (by omega), Framer.storeAt_target, hslice (by omega)]
    · exact (if_neg hdata).trans (if_neg hdata).symm
  refine ⟨frStep_store_of_lt hs, fun hn hbad => frStep_store_of_fails hs hn h269 (mt (hgood hn).mp hbad),
    fun hn hpass => ?_⟩
  rw [frStep_store_of_passes hs hn h269 ((hgood hn).mpr hpass), frDispatch, hevent hn, ← setIfInBounds_eq_set]
  rfl

/-! ## The framer's commands -/

/-- Settles O21: the reset values, and a row of class `Z`. -/
theorem frResetResult : Obligations.FrResetResult :=
  ⟨fun _ => rfl, answersIllegal_of_classZ 0 (by decide)⟩

/-- Settles O22: the three statistics, and a row of class `Z`. -/
theorem frStatusResult : Obligations.FrStatusResult :=
  ⟨fun _ => rfl, answersIllegal_of_classZ 0 (by decide)⟩

/-- A sealed body with its CRC written byte by byte (R106). -/
theorem sealFrame_eq (crc : List Byte → BitVec 32) (body : List Byte) :
    sealFrame crc body = [0x55, 0x00] ++ body ++
      [BitVec.ofNat 8 (crc body).toNat, BitVec.ofNat 8 ((crc body).toNat / 2 ^ 8),
        BitVec.ofNat 8 ((crc body).toNat / 2 ^ 16), BitVec.ofNat 8 ((crc body).toNat / 2 ^ 24), 0x55] := by
  rw [sealFrame, le32_eq_ofNat, List.append_assoc]
  rfl

/-- The body of a data frame as R180 lays it out, in numbers. -/
theorem dataBody_eq {frameId metadata : Word64} (hid : frameId.toNat ≤ 2047) (hmd : metadata.toNat ≤ 0xFFFF)
    (payload : List Byte) :
    dataBody (frameId.setWidth 11) (metadata.setWidth 16) payload =
      [BitVec.ofNat 8 (frameId.toNat / 256), BitVec.ofNat 8 frameId.toNat, BitVec.ofNat 8 (payload.length - 1),
        crc8Update 0x00 [BitVec.ofNat 8 (payload.length - 1)], BitVec.ofNat 8 metadata.toNat,
        BitVec.ofNat 8 (metadata.toNat / 256)] ++ payload := by
  have htype : typeIdByte typeData (frameId.setWidth 11) = BitVec.ofNat 8 (frameId.toNat / 256) := by
    rw [typeIdByte_eq_ofNat _ hid]
    exact congrArg _ (Nat.zero_add _)
  have hmdNat : (metadata.setWidth 16).toNat = metadata.toNat := by
    rw [BitVec.toNat_setWidth, Nat.mod_eq_of_lt (Nat.lt_succ_of_le hmd)]
  rw [dataBody, htype, idByte_eq_ofNat, le16_eq_ofNat, hmdNat]
  rfl

/-- The body of a link frame as R181 lays it out, in numbers. -/
theorem linkBody_eq {a : BitVec 8} {frameId : Word64} (ha : IsLinkType a) (hid : frameId.toNat ≤ 2047) :
    linkBody (a.setWidth 5) (frameId.setWidth 11) =
      [BitVec.ofNat 8 (8 * a.toNat + frameId.toNat / 256), BitVec.ofNat 8 frameId.toNat] := by
  have haNat : (a.setWidth 5).toNat = a.toNat := by
    rcases ha with rfl | rfl | rfl | rfl | rfl <;> rfl
  rw [linkBody, typeIdByte_eq_ofNat _ hid, idByte_eq_ofNat, haNat]

/-- Settles O24: the body in numbers, sealed; the operands' check; and a row of class `L`. -/
theorem constructDataFrameBytes : Obligations.ConstructDataFrameBytes := by
  refine ⟨fun s frameId metadata data hid hmd h1 h256 => ?_, fun s frameId metadata data hbad => ?_,
    answersIllegal_of_classL 2 (by decide)⟩
  · intro lenByte body c out
    have hexec := exec_frConstructData_of_legal (s := s) (data := data) ⟨hid, hmd, h1, h256⟩
    rw [dataBody_eq hid hmd, sealFrame_eq] at hexec
    exact ⟨by simp [out, body], hexec⟩
  · exact exec_frConstructData_of_illegal fun ⟨hid, hmd, h1, h256⟩ => by omega

/-- Settles O25: the body in numbers, sealed; the operands' check; and a row of class `A`. -/
theorem constructLinkFrameBytes : Obligations.ConstructLinkFrameBytes := by
  refine ⟨fun s a frameId ha hid => ?_, fun s a frameId hbad => ?_, answersIllegal_of_classA 1 (by decide)⟩
  · have hexec := exec_frConstructLink_of_legal (s := s) ⟨ha, hid⟩
    rw [linkBody_eq ha hid, sealFrame_eq] at hexec
    exact hexec
  · exact exec_frConstructLink_of_illegal fun ⟨ha, hid⟩ => hbad.elim (· ha) (Nat.not_lt_of_le hid)

end Sys2Proof.Machine
end

section
/-! PROOFS. The family of spec/42_transport.md: the metadata word, the Transport's commands, and what they leave
unread. -/

namespace Sys2Proof.Machine

/-! ## The metadata word, on naturals -/

/-- The three fields of the metadata word occupy separate bits, so their disjunction is the sum of R224. -/
theorem toNat_packMetadata (p : BitVec 5) (sq : BitVec 2) (pd : BitVec 8) :
    (packMetadata p sq pd).toNat = 64 * sq.toNat + p.toNat + 256 * pd.toNat := by
  have hp := p.isLt
  have hsq := sq.isLt
  have hpd := pd.isLt
  have hseq : (sq.setWidth 16 <<< 6).toNat = sq.toNat <<< 6 := by
    rw [BitVec.toNat_shiftLeft, BitVec.toNat_setWidth_of_le (by decide), Nat.mod_eq_of_lt (by omega)]
  have hdata : (pd.setWidth 16 <<< 8).toNat = pd.toNat <<< 8 := by
    rw [BitVec.toNat_shiftLeft, BitVec.toNat_setWidth_of_le (by decide), Nat.mod_eq_of_lt (by omega)]
  have hport : (p.setWidth 16).toNat = p.toNat := BitVec.toNat_setWidth_of_le (by decide)
  have hlow : sq.toNat <<< 6 ||| p.toNat = sq.toNat <<< 6 + p.toNat :=
    (Nat.shiftLeft_add_eq_or_of_lt (by omega) _).symm
  have hlt : sq.toNat <<< 6 + p.toNat < 2 ^ 8 := by omega
  calc (packMetadata p sq pd).toNat
      = (sq.toNat <<< 6 + p.toNat) ||| pd.toNat <<< 8 := by
        rw [packMetadata, BitVec.toNat_or, BitVec.toNat_or, hseq, hdata, hport, hlow]
    _ = pd.toNat <<< 8 + (sq.toNat <<< 6 + p.toNat) := by
        rw [Nat.or_comm, Nat.shiftLeft_add_eq_or_of_lt hlt]
    _ = 64 * sq.toNat + p.toNat + 256 * pd.toNat := by omega

theorem toNat_mdPortId (md : BitVec 16) : (mdPortId md).toNat = md.toNat % 32 := by
  rw [mdPortId, toNat_extractLsb'_eq_div]
  omega

theorem toNat_mdSeq (md : BitVec 16) : (mdSeq md).toNat = md.toNat / 64 % 4 := by
  rw [mdSeq, toNat_extractLsb'_eq_div]
  rfl

theorem toNat_mdPortData (md : BitVec 16) : (mdPortData md).toNat = md.toNat / 256 := by
  have := md.isLt
  rw [mdPortData, toNat_extractLsb'_eq_div]
  omega

theorem mdPortId_packMetadata (p : BitVec 5) (sq : BitVec 2) (pd : BitVec 8) :
    mdPortId (packMetadata p sq pd) = p := by
  have := p.isLt
  rw [← BitVec.toNat_inj, toNat_mdPortId, toNat_packMetadata]
  omega

theorem mdSeq_packMetadata (p : BitVec 5) (sq : BitVec 2) (pd : BitVec 8) :
    mdSeq (packMetadata p sq pd) = sq := by
  have := p.isLt
  have := sq.isLt
  rw [← BitVec.toNat_inj, toNat_mdSeq, toNat_packMetadata]
  omega

theorem mdPortData_packMetadata (p : BitVec 5) (sq : BitVec 2) (pd : BitVec 8) :
    mdPortData (packMetadata p sq pd) = pd := by
  have := p.isLt
  have := sq.isLt
  rw [← BitVec.toNat_inj, toNat_mdPortData, toNat_packMetadata]
  omega

/-- Bit 5 belongs to no field (R224). -/
theorem getLsbD_five_packMetadata (p : BitVec 5) (sq : BitVec 2) (pd : BitVec 8) :
    (packMetadata p sq pd).getLsbD 5 = false := by
  have := p.isLt
  rw [← Bool.not_eq_true, getLsbD_iff_digit, toNat_packMetadata]
  omega

/-- A field of the metadata word that bit 5 is no part of does not see it. -/
theorem extractLsb'_or_bit_five (md : BitVec 16) {start len : Nat}
    (h : (0x20 : BitVec 16).extractLsb' start len = 0#len) :
    (md ||| 0x20).extractLsb' start len = md.extractLsb' start len := by
  rw [BitVec.extractLsb'_or, h, BitVec.or_zero]

/-- Settles O45: packing is a sum of separate fields, unpacking reads the digits. -/
theorem metadataPackUnpack : Obligations.MetadataPackUnpack :=
  ⟨fun p sq pd => ⟨toNat_packMetadata p sq pd, getLsbD_five_packMetadata p sq pd, mdPortId_packMetadata p sq pd,
      mdSeq_packMetadata p sq pd, mdPortData_packMetadata p sq pd⟩,
    fun md => ⟨⟨toNat_mdPortId md, toNat_mdSeq md, toNat_mdPortData md⟩,
      extractLsb'_or_bit_five md (by decide), extractLsb'_or_bit_five md (by decide),
      extractLsb'_or_bit_five md (by decide)⟩⟩

/-- The word `TP_SEND` packs from operands in range, as the sum of R224. -/
theorem packMetadata_eq_ofNat {a : BitVec 8} {seq portData : Word64} (ha : a.toNat ≤ 31) (hseq : seq.toNat ≤ 3) :
    packMetadata (a.setWidth 5) (seq.setWidth 2) (portData.setWidth 8) =
      BitVec.ofNat 16 (64 * seq.toNat + a.toNat + 256 * portData.toNat) := by
  rw [← BitVec.toNat_inj, toNat_packMetadata]
  simp only [BitVec.toNat_setWidth, BitVec.toNat_ofNat]
  omega

/-- A field of the metadata word, read from an argument word in range (R231). -/
theorem extractLsb'_setWidth_eq_ofNat {metadata : Word64} (h : metadata.toNat ≤ 0xFFFF) (start len : Nat) :
    (metadata.setWidth 16).extractLsb' start len = BitVec.ofNat len (metadata.toNat / 2 ^ start) := by
  rw [extractLsb'_eq_ofNat, BitVec.toNat_setWidth, Nat.mod_eq_of_lt (Nat.lt_succ_of_le h)]

/-! ## The two handler flags of a registration (R221, R223) -/

theorem getLsbD_zero_eq_decide (flags : Word64) : flags.getLsbD 0 = decide (flags.toNat % 2 = 1) := by
  rw [Bool.eq_iff_iff, getLsbD_iff_digit, decide_eq_true_eq, Nat.pow_zero, Nat.div_one]

theorem getLsbD_one_eq_decide {flags : Word64} (h : flags.toNat ≤ 3) :
    flags.getLsbD 1 = decide (flags.toNat / 2 = 1) := by
  rw [Bool.eq_iff_iff, getLsbD_iff_digit, decide_eq_true_eq]
  omega

/-- The replay to a registrant, by the event flag as a digit (R230). -/
theorem replayEvent_flag (flags : Word64) (dest : Dest) (userData : Word64) (lastEvent : BitVec 8) :
    replayEvent (flags.getLsbD 0) dest userData lastEvent =
      if flags.toNat % 2 = 1 then [.portEvent dest userData lastEvent] else [] := by
  simp only [replayEvent, getLsbD_zero_eq_decide, decide_eq_true_eq]

/-! ## Each command, by whether its operands are legal -/

/-- The state after a registration: the Transport written, and the last event replayed to the registrant. -/
def afterRegistration (s : State) (tp : Transport) (flags : Word64) (dest : Dest) (userData : Word64) : State :=
  respond (okResponse [] [] (replayEvent (flags.getLsbD 0) dest userData s.transport.lastEvent))
    { s with transport := tp }

section
variable {s : State} {a : BitVec 8} {flags userData portMeta seq portData metadata : Word64} {data : List Byte}

theorem tpRegister_check_iff :
    (portInRange a && inRange flags 3) = true ↔ OperandsLegal (.tpRegister a flags userData portMeta) := by
  simp [portInRange_iff, inRange_iff, OperandsLegal]

theorem tpSend_check_iff :
    (portInRange a && inRange seq 3 && inRange portData 0xFF) = true ↔
      OperandsLegal (.tpSend a seq portData data) := by
  simp [portInRange_iff, inRange_iff, OperandsLegal, and_assoc]

theorem exec_tpRegister_of_legal (h : OperandsLegal (.tpRegister a flags userData portMeta)) :
    exec (.tpRegister a flags userData portMeta) s = .next (afterRegistration s
      (s.transport.setSlot (a.setWidth 5)
        { evEn := flags.getLsbD 0, rxEn := flags.getLsbD 1, userData := userData, portMeta := portMeta })
      flags (.port (a.setWidth 5)) userData) :=
  if_pos (tpRegister_check_iff.mpr h)

theorem exec_tpRegister_of_illegal (h : ¬ OperandsLegal (.tpRegister a flags userData portMeta)) :
    exec (.tpRegister a flags userData portMeta) s = .next (answered s (failedResponse .paramInvalid 0)) :=
  if_neg (mt tpRegister_check_iff.mp h)

theorem exec_tpRegisterDefault_of_legal (h : OperandsLegal (.tpRegisterDefault flags userData)) :
    exec (.tpRegisterDefault flags userData) s = .next (afterRegistration s
      { s.transport with
        deflt := { evEn := flags.getLsbD 0, rxEn := flags.getLsbD 1, userData := userData } }
      flags .dflt userData) :=
  if_pos ((inRange_iff _ _).mpr h)

theorem exec_tpRegisterDefault_of_illegal (h : ¬ OperandsLegal (.tpRegisterDefault flags userData)) :
    exec (.tpRegisterDefault flags userData) s = .next (answered s (failedResponse .paramInvalid 0)) :=
  if_neg (mt (inRange_iff _ _).mp h)

/-- OK and LL_ERROR differ in the status alone (R226, R336). -/
theorem exec_tpSend_of_legal (h : OperandsLegal (.tpSend a seq portData data)) :
    exec (.tpSend a seq portData data) s = .next (answered s
      { status := if s.env.llStatus = 0 then .ok else .llError
        res := [s.env.llStatus.setWidth 64], out := []
        events := [.llSend (packMetadata (a.setWidth 5) (seq.setWidth 2) (portData.setWidth 8)) data] }) := by
  refine (if_pos (tpSend_check_iff.mpr h)).trans ?_
  by_cases hcode : s.env.llStatus = 0
  · rw [if_pos hcode, if_pos hcode]; rfl
  · rw [if_neg hcode, if_neg hcode]; rfl

theorem exec_tpSend_of_illegal (h : ¬ OperandsLegal (.tpSend a seq portData data)) :
    exec (.tpSend a seq portData data) s = .next (answered s (failedResponse .paramInvalid 1)) :=
  if_neg (mt tpSend_check_iff.mp h)

theorem exec_tpRecv_of_legal (h : OperandsLegal (.tpRecv metadata data)) :
    exec (.tpRecv metadata data) s =
      .next (answered s (okResponse [] [] (deliver s.transport (metadata.setWidth 16) data))) :=
  if_pos ((inRange_iff _ _).mpr h)

theorem exec_tpRecv_of_illegal (h : ¬ OperandsLegal (.tpRecv metadata data)) :
    exec (.tpRecv metadata data) s = .next (answered s (failedResponse .paramInvalid 0)) :=
  if_neg (mt (inRange_iff _ _).mp h)

end

/-! ## The registrations -/

/-- Settles O39: the written slot reads back, every other slot is as before, and the row is of class `A`. -/
theorem tpRegisterResult : Obligations.TpRegisterResult := by
  refine ⟨fun s a flags userData portMeta p hp hflags => ?_, fun s a flags userData portMeta hbad => ?_,
    answersIllegal_of_classA 3 (by decide)⟩
  · have hport : a.setWidth 5 = p := by
      rw [← BitVec.toNat_inj, BitVec.toNat_setWidth, ← hp, Nat.mod_eq_of_lt p.isLt]
    have hlegal : OperandsLegal (.tpRegister a flags userData portMeta) :=
      ⟨hp ▸ Nat.le_of_lt_succ p.isLt, hflags⟩
    have hexec := exec_tpRegister_of_legal (s := s) hlegal
    rw [hport, afterRegistration, replayEvent_flag] at hexec
    refine ⟨_, hexec, ?_, fun q hq => Transport.slot_setSlot_ne _ _ hq, rfl, rfl⟩
    rw [Transport.slot_setSlot_self, getLsbD_zero_eq_decide, getLsbD_one_eq_decide hflags]
  · exact exec_tpRegister_of_illegal fun ⟨ha, hflags⟩ => by omega

/-- Settles O40: the slot in digits of the flags, and a row of class `Z`. -/
theorem tpRegisterDefaultResult : Obligations.TpRegisterDefaultResult := by
  refine ⟨fun s flags userData hflags => ?_, fun s flags userData hbad => ?_, answersIllegal_of_classZ 2 (by decide)⟩
  · have hexec := exec_tpRegisterDefault_of_legal (s := s) (userData := userData) hflags
    rw [afterRegistration, replayEvent_flag, getLsbD_zero_eq_decide, getLsbD_one_eq_decide hflags] at hexec
    exact hexec
  · exact exec_tpRegisterDefault_of_illegal (Nat.not_le_of_lt hbad)

/-! ## Messages and events -/

/-- Settles O41: the metadata word and the lower layer's code in numbers. -/
theorem tpSendResult : Obligations.TpSendResult := by
  refine ⟨fun s a seq portData data ha hseq hdata => ?_, fun s a seq portData data hbad => ?_⟩
  · rw [exec_tpSend_of_legal ⟨ha, hseq, hdata⟩, packMetadata_eq_ofNat ha hseq, BitVec.ofNat_toNat]
  · exact exec_tpSend_of_illegal fun ⟨ha, hseq, hdata⟩ => by omega

/-- Only a cached code is written to `TP_LAST_EVENT` (R228). -/
theorem cacheEvent_eq (tp : Transport) (e : BitVec 8) :
    (if isCached e then { tp with lastEvent := e } else tp) =
      { tp with lastEvent := if e = 1 ∨ e = 2 ∨ e = 3 ∨ e = 4 then e else tp.lastEvent } := by
  simp only [isCached_iff]
  split <;> rfl

theorem fanOut_setLastEvent (tp : Transport) (v e : BitVec 8) : fanOut { tp with lastEvent := v } e = fanOut tp e := rfl

/-- Settles O42: the fan-out does not see the cache, and the row is of class `A`. -/
theorem tpEventResult : Obligations.TpEventResult := by
  refine ⟨fun s a => ?_, answersIllegal_of_classA 0 (by decide)⟩
  have hexec : exec (.tpEvent a) s = execTpEvent a s := rfl
  rw [hexec, execTpEvent, cacheEvent_eq, fanOut_setLastEvent, fanOut, allPorts, List.filterMap_map]
  rfl

/-- The port a metadata word in range names, in numbers (R231). -/
theorem mdPortId_setWidth_eq_ofNat {metadata : Word64} (h : metadata.toNat ≤ 0xFFFF) :
    mdPortId (metadata.setWidth 16) = BitVec.ofNat 5 metadata.toNat := by
  rw [mdPortId, extractLsb'_setWidth_eq_ofNat h, Nat.pow_zero, Nat.div_one]

/-- Settles O43: the fields of the metadata word in numbers, and a row of class `L`. -/
theorem tpRecvResult : Obligations.TpRecvResult := by
  refine ⟨fun s metadata data hmd => ?_, fun s metadata data hbad => ?_, answersIllegal_of_classL 1 (by decide)⟩
  · have hseq : mdSeq (metadata.setWidth 16) = BitVec.ofNat 2 (metadata.toNat / 64) :=
      extractLsb'_setWidth_eq_ofNat hmd 6 2
    have hdata : mdPortData (metadata.setWidth 16) = BitVec.ofNat 8 (metadata.toNat / 256) :=
      extractLsb'_setWidth_eq_ofNat hmd 8 8
    intro p sq pd slot
    rw [exec_tpRecv_of_legal hmd, deliver, mdPortId_setWidth_eq_ofNat hmd, hseq, hdata]
  · exact exec_tpRecv_of_illegal (Nat.not_le_of_lt hbad)

/-! ## Where a message goes (R232) -/

section
variable {tp : Transport} {md : BitVec 16}

theorem deliver_of_port (hport : (tp.slot (mdPortId md)).rxEn = true) (msg : List Byte) :
    deliver tp md msg =
      [.portRecv (.port (mdPortId md)) (tp.slot (mdPortId md)).userData (mdPortId md) (mdSeq md) (mdPortData md) msg] :=
  if_pos hport

theorem deliver_of_dflt (hport : ¬ (tp.slot (mdPortId md)).rxEn = true) (hdflt : tp.deflt.rxEn = true)
    (msg : List Byte) :
    deliver tp md msg = [.portRecv .dflt tp.deflt.userData (mdPortId md) (mdSeq md) (mdPortData md) msg] :=
  (if_neg hport).trans (if_pos hdflt)

theorem deliver_of_neither (hport : ¬ (tp.slot (mdPortId md)).rxEn = true) (hdflt : ¬ tp.deflt.rxEn = true)
    (msg : List Byte) : deliver tp md msg = [] :=
  (if_neg hport).trans (if_neg hdflt)

end

/-- The one response of a command that only answers. -/
theorem response_of_answered {o : Result} {s t : State} {r r' : Response} (ho : o = .next (answered s r))
    (h : o = .next t) (hr : t.responses = s.responses ++ [r']) : r' = r := by
  obtain rfl : answered s r = t := Host.Outcome.next.inj (ho.symm.trans h)
  exact (List.singleton_inj.mp (List.append_cancel_left hr)).symm

/-- Settles O44, by where the message goes. -/
theorem portIsolation : Obligations.PortIsolation := by
  intro s t metadata data r hmd h hr p
  obtain rfl := response_of_answered (exec_tpRecv_of_legal hmd) h hr
  rw [okResponse_events, show p = _ from (mdPortId_setWidth_eq_ofNat hmd).symm]
  by_cases hport : (s.transport.slot (mdPortId (metadata.setWidth 16))).rxEn = true
  · rw [deliver_of_port hport]
    exact ⟨le_rfl, fun e he => ⟨_, _, _, _, List.mem_singleton.mp he, .inl rfl⟩, by simp [hport]⟩
  by_cases hdflt : s.transport.deflt.rxEn = true
  · rw [deliver_of_dflt hport hdflt]
    exact ⟨le_rfl, fun e he => ⟨_, _, _, _, List.mem_singleton.mp he, .inr rfl⟩, by simp [hdflt]⟩
  · rw [deliver_of_neither hport hdflt]
    exact ⟨Nat.zero_le _, fun e he => absurd he List.not_mem_nil, fun _ _ => rfl⟩

/-- A field widened to an operand is the field again once narrowed. -/
theorem setWidth_setWidth_self {v w : Nat} (x : BitVec v) (h : v ≤ w) : (x.setWidth w).setWidth v = x := by
  rw [BitVec.setWidth_setWidth_of_le x h, BitVec.setWidth_eq]

/-- A field of `v` bits widened to an operand is below `2^v`. -/
theorem toNat_setWidth_lt {v w : Nat} (x : BitVec v) (h : v ≤ w) : (x.setWidth w).toNat < 2 ^ v := by
  rw [BitVec.toNat_setWidth_of_le h]
  exact x.isLt

/-- Settles O46: `TP_SEND` leaves the Transport, and the word it packed unpacks to the same fields. -/
theorem sequencePassThrough : Obligations.SequencePassThrough := by
  intro s p sq pd msg hrx
  have hsend := exec_tpSend_of_legal (s := s) (a := p.setWidth 8) (seq := sq.setWidth 64) (portData := pd.setWidth 64)
    (data := msg) ⟨Nat.le_of_lt_succ (toNat_setWidth_lt p (by decide)),
      Nat.le_of_lt_succ (toNat_setWidth_lt sq (by decide)), Nat.le_of_lt_succ (toNat_setWidth_lt pd (by decide))⟩
  simp only [setWidth_setWidth_self _ (show 5 ≤ 8 by decide), setWidth_setWidth_self _ (show 2 ≤ 64 by decide),
    setWidth_setWidth_self _ (show 8 ≤ 64 by decide)] at hsend
  refine ⟨_, _, packMetadata p sq pd, _, hsend, rfl, rfl,
    exec_tpRecv_of_legal (Nat.le_of_lt_succ (toNat_setWidth_lt _ (by decide))), ?_⟩
  have hdeliver : deliver s.transport (packMetadata p sq pd) msg =
      [.portRecv (.port p) (s.transport.slot p).userData p sq pd msg] := by
    rw [deliver_of_port (by rwa [mdPortId_packMetadata]), mdPortId_packMetadata, mdSeq_packMetadata,
      mdPortData_packMetadata]
  rw [setWidth_setWidth_self _ (show 16 ≤ 64 by decide), ← hdeliver]
  rfl

/-! ## META is stored and never read -/

/-- The port table with every `META` cleared. -/
def Transport.eraseMeta (tp : Transport) : Transport :=
  { tp with ports := tp.ports.map fun slot => { slot with portMeta := 0 } }

/-- It is what the statement's `eraseMeta` does to a state. -/
theorem eraseMeta_eq (s : State) : eraseMeta s = { s with transport := s.transport.eraseMeta } := rfl

theorem Transport.slot_eraseMeta (tp : Transport) (p : BitVec 5) :
    tp.eraseMeta.slot p = { tp.slot p with portMeta := 0 } :=
  Vector.getElem_map _ _

theorem Transport.eraseMeta_eraseMeta (tp : Transport) : tp.eraseMeta.eraseMeta = tp.eraseMeta := by
  simp [Transport.eraseMeta, Function.comp_def]

theorem eraseMeta_eraseMeta (s : State) : eraseMeta (eraseMeta s) = eraseMeta s :=
  congrArg (fun tp => { s with transport := tp }) s.transport.eraseMeta_eraseMeta

/-- Erasing before a slot is written is lost in erasing after it. -/
theorem Transport.eraseMeta_setSlot_eraseMeta (tp : Transport) (p : BitVec 5) (v : PortSlot) :
    (tp.eraseMeta.setSlot p v).eraseMeta = (tp.setSlot p v).eraseMeta := by
  simp [Transport.eraseMeta, Transport.setSlot, Vector.map_set, Function.comp_def]

/-- The fan-out reads of a slot its event flag and its user data (R229). -/
theorem fanOut_eraseMeta (tp : Transport) (e : BitVec 8) : fanOut tp.eraseMeta e = fanOut tp e := by
  simp only [fanOut, Transport.slot_eraseMeta]
  rfl

/-- A delivery reads of a slot its receive flag and its user data (R232). -/
theorem deliver_eraseMeta (tp : Transport) (md : BitVec 16) (msg : List Byte) :
    deliver tp.eraseMeta md msg = deliver tp md msg := by
  simp only [deliver, Transport.slot_eraseMeta]
  rfl

/-- The command that writes a `META`. -/
def writesMeta : Instr → Bool
  | .tpRegister _ _ _ _ => true
  | _ => false

/-- Every other command runs the same whatever the `META`s are, and carries them along. -/
theorem exec_eraseMeta_of_not_writesMeta {i : Instr} (hi : writesMeta i = false) (s : State) :
    exec i (eraseMeta s) = onNext eraseMeta (exec i s) := by
  cases i with
  | tpRegister => cases hi
  | nop | frReset | frRecv | frStatus | tsReset | tsUpdate | tsTime | tsRead => rfl
  | crc8 | crc16 | crc32 | frConstructData | frConstructLink | tpRegisterDefault | tpSend =>
    simp only [exec, execCrc8, execCrc16, execCrc32, execFrConstructData, execFrConstructLink, execTpRegisterDefault,
      execTpSend, apply_ite (onNext _)]
    rfl
  | tpEvent a =>
    simp only [exec, execTpEvent, cacheEvent_eq, fanOut_setLastEvent, eraseMeta_eq, fanOut_eraseMeta]
    rfl
  | tpRecv =>
    simp only [exec, execTpRecv, eraseMeta_eq, deliver_eraseMeta, apply_ite (onNext _)]
    rfl

/-- A registration at a state with every `META` cleared leaves what it leaves at the state itself, but for `META`s. -/
theorem exec_tpRegister_eraseMeta {a : BitVec 8} {flags userData portMeta : Word64} {s t : State}
    (h : exec (.tpRegister a flags userData portMeta) s = .next t) :
    ∃ t', exec (.tpRegister a flags userData portMeta) (eraseMeta s) = .next t' ∧ eraseMeta t' = eraseMeta t := by
  by_cases hlegal : OperandsLegal (.tpRegister a flags userData portMeta)
  · rw [exec_tpRegister_of_legal hlegal] at h
    cases h
    exact ⟨_, exec_tpRegister_of_legal hlegal,
      congrArg (fun tp => { afterRegistration s tp flags (.port (a.setWidth 5)) userData with transport := tp })
        (s.transport.eraseMeta_setSlot_eraseMeta _ _)⟩
  · rw [exec_tpRegister_of_illegal hlegal] at h
    cases h
    exact ⟨_, exec_tpRegister_of_illegal hlegal, eraseMeta_eraseMeta (answered s _)⟩

/-- One command at a state with every `META` cleared leaves what it leaves at the state itself, but for `META`s. -/
theorem exec_eraseMeta {i : Instr} {s t : State} (h : exec i s = .next t) :
    ∃ t', exec i (eraseMeta s) = .next t' ∧ eraseMeta t' = eraseMeta t := by
  cases i with
  | tpRegister => exact exec_tpRegister_eraseMeta h
  | _ => exact ⟨eraseMeta t, by rw [exec_eraseMeta_of_not_writesMeta rfl, h]; rfl, eraseMeta_eraseMeta t⟩

/-- Settles O48: the responses are part of what agrees. -/
theorem metaIsNeverRead : Obligations.MetaIsNeverRead := by
  intro i s t h
  obtain ⟨t', he, herase⟩ := exec_eraseMeta h
  have hresponses : (eraseMeta t').responses = (eraseMeta t).responses := by rw [herase]
  exact ⟨t', he, hresponses, herase⟩

end Sys2Proof.Machine
end

section
/-! PROOFS. The family of spec/43_timesync.md: the time-sync commands, and the filter step formula by formula. -/

namespace Sys2Proof.Machine

/-! ## Arithmetic by divisors that are positive -/

theorem wrapu64_s64 (w : Word64) : wrapu64 (s64 w) = w := BitVec.ofInt_toInt

theorem fxmul_eq (a b : Int) : fxmul a b = sat128 (a * b / 2 ^ 32) :=
  congrArg sat128 (floorDiv_of_pos _ (by decide))

theorem fxdiv_of_pos (a : Int) {b : Int} (h : 0 < b) : fxdiv a b = sat128 (a * 2 ^ 32 / b) :=
  congrArg sat128 (floorDiv_of_pos _ h)

theorem scaleNom_of_pos {f : Nat} (h : 1 ≤ f) : scaleNom f = (2 ^ 63 + (f : Int)) / (2 * f) :=
  floorDiv_of_pos _ (by omega)

/-- `SCALE_NOM` as a natural number (R55). -/
theorem scaleNom_eq_natCast {f : Nat} (h : 1 ≤ f) : scaleNom f = (((2 ^ 63 + f) / (2 * f) : Nat) : Int) := by
  rw [scaleNom_of_pos h]
  push_cast
  rfl

/-- A legal frequency's nominal scale is read back from its word. -/
theorem toNat_wrapu64_scaleNom {f : Nat} (h1 : 1 ≤ f) (h2 : f ≤ 2 ^ 62) :
    (wrapu64 (scaleNom f)).toNat = (2 ^ 63 + f) / (2 * f) := by
  obtain ⟨hlow, hhigh⟩ := scaleNom_bounds h1 h2
  have hread : u64 (wrapu64 (scaleNom f)) = scaleNom f := u64_wrapu64 (by omega) hhigh
  exact Int.ofNat_inj.mp (hread.trans (scaleNom_eq_natCast h1))

/-- The mean counter, mean time and delay of a round trip (R266). -/
theorem roundTrip_eq (stx trx ttx srx : Int) :
    roundTrip stx trx ttx srx =
      { c := stx + (srx - stx) / 2, t := trx + (ttx - trx) / 2, dcnt := (srx - stx) / 2 } := by
  simp only [roundTrip, floorDiv_of_pos _ (show (0 : Int) < 2 by decide)]

/-- `time_at` floors the exact product (R264). -/
theorem TimeSync.timeAt_eq (ts : TimeSync) (c : Int) :
    ts.timeAt c = sat64 (s64 ts.timeOffset + (c - u64 ts.counterOffset) * u64 ts.scale / 2 ^ 32) := by
  rw [TimeSync.timeAt, floorDiv_of_pos _ (by decide)]

/-- At the committed counter the time is the committed time, whatever the scale (R270). -/
theorem TimeSync.timeAt_counterOffset (ts : TimeSync) : ts.timeAt (u64 ts.counterOffset) = s64 ts.timeOffset := by
  obtain ⟨h1, h2⟩ := s64_bounds ts.timeOffset
  rw [TimeSync.timeAt_eq, sub_self, zero_mul, Int.zero_ediv, add_zero]
  exact clamp_of_mem h1 h2

/-! ## Reset and the two reads -/

/-- Settles O49: the reset values, and a row of class `Z`. -/
theorem tsResetResult : Obligations.TsResetResult :=
  ⟨fun s => ⟨TimeSync.reset s.params.counterHz, rfl, rfl, rfl,
      fun ⟨⟨hf1, hf2⟩, _⟩ => toNat_wrapu64_scaleNom hf1 hf2, rfl, rfl, rfl, rfl,
      fun _ => Vector.getElem_replicate _, rfl, rfl⟩,
    answersIllegal_of_classZ 0 (by decide)⟩

/-- The two fields of the flag word occupy separate bits, so their disjunction is a sum (R278). -/
theorem TimeSync.flagWord_eq_ofNat (ts : TimeSync) :
    ts.flagWord = BitVec.ofNat 64 ((if 0 < ts.nhist.toNat then 1 else 0) + 16 * ts.nhist.toNat) := by
  have hn := ts.nhist.isLt
  have hcount : (ts.nhist.setWidth 64 <<< 4).toNat = ts.nhist.toNat <<< 4 := by
    rw [BitVec.toNat_shiftLeft, BitVec.toNat_setWidth_of_le (by decide), Nat.mod_eq_of_lt (by omega)]
  have hbit : (if 0 < ts.nhist.toNat then 1 else 0) < 2 ^ 4 := by split <;> decide
  have hsynced : (if ts.synced then 1 else 0) = if 0 < ts.nhist.toNat then 1 else 0 := by
    simp only [TimeSync.synced, decide_eq_true_eq]
  rw [← BitVec.toNat_inj, TimeSync.flagWord, hsynced, BitVec.toNat_or, hcount, BitVec.natCast_eq_ofNat,
    BitVec.toNat_ofNat, BitVec.toNat_ofNat, Nat.mod_eq_of_lt (by omega), Nat.or_comm,
    ← Nat.shiftLeft_add_eq_or_of_lt hbit]
  omega

/-- Settles O50: the flag word as a sum, and a row of class `Z`. -/
theorem tsReadResult : Obligations.TsReadResult := by
  refine ⟨fun s => ?_, answersIllegal_of_classZ 0 (by decide)⟩
  rw [← TimeSync.flagWord_eq_ofNat]
  rfl

theorem exec_tsTime (s : State) :
    exec .tsTime s = .next (answered s (okResponse [wrapu64 (s.timeSync.timeAt (u64 s.env.counter))] [] [])) := rfl

/-- Settles O51: `time_at` with its floor, and a row of class `Z`. -/
theorem tsTimeResult : Obligations.TsTimeResult := by
  refine ⟨fun s => ?_, answersIllegal_of_classZ 0 (by decide)⟩
  rw [exec_tsTime, TimeSync.timeAt_eq]
  rfl

/-! ## The samples `TS_UPDATE` takes -/

/-- The state after a sample: the filter it leaves, and its outcome code as the result. -/
def afterSample (s : State) (r : TimeSync × Word64) : State :=
  respond (okResponse [r.2] [] []) { s with timeSync := r.1 }

section
variable {s : State} {srcTx tgtRx tgtTx srcRx : Word64}

theorem exec_tsUpdate :
    exec (.tsUpdate srcTx tgtRx tgtTx srcRx) s = .next (afterSample s
      (updateFilter s.params (u64 srcTx) (s64 tgtRx) (s64 tgtTx) (u64 srcRx) s.timeSync)) := rfl

/-- A rejected sample leaves the filter, so the command only answers. -/
theorem exec_tsUpdate_of_rejected {o : Word64}
    (h : updateFilter s.params (u64 srcTx) (s64 tgtRx) (s64 tgtTx) (u64 srcRx) s.timeSync = (s.timeSync, o)) :
    exec (.tsUpdate srcTx tgtRx tgtTx srcRx) s = .next (answered s (okResponse [o] [] [])) := by
  rw [exec_tsUpdate, h]
  rfl

/-- What a sample must pass beside its counter's advance: the remote has times, and neither clock goes back (R265). -/
def InOrder (srcTx tgtRx tgtTx srcRx : Word64) : Prop :=
  (tgtRx.toInt ≠ 0 ∧ tgtTx.toInt ≠ 0) ∧ srcTx.toNat ≤ srcRx.toNat ∧ tgtRx.toInt ≤ tgtTx.toInt

/-- An accepted sample is pushed and filtered (R266, R269). -/
theorem exec_tsUpdate_of_accepted {x : RoundTrip} (h : InOrder srcTx tgtRx tgtTx srcRx)
    (hx : roundTrip (u64 srcTx) (s64 tgtRx) (s64 tgtTx) (u64 srcRx) = x)
    (hnew : s.timeSync.nhist ≠ 0 → u64 (s.timeSync.entry (s.timeSync.head - 1)).counter < x.c) :
    exec (.tsUpdate srcTx tgtRx tgtTx srcRx) s = .next (afterSample s
      (filterStep s.params s.timeSync.head x (s.timeSync.push x))) := by
  subst hx
  obtain ⟨⟨hrx, htx⟩, hsrc, htgt⟩ := h
  have htime : ¬ (s64 tgtRx = 0 ∨ s64 tgtTx = 0) := not_or.mpr ⟨hrx, htx⟩
  have hmono : ¬ (u64 srcTx > u64 srcRx ∨ s64 tgtRx > s64 tgtTx) :=
    not_or.mpr ⟨not_lt.mpr (Int.ofNat_le.mpr hsrc), not_lt.mpr htgt⟩
  rw [exec_tsUpdate, updateFilter_of_accepted _ _ htime hmono fun ⟨hn, hle⟩ => not_le.mpr (hnew hn) hle]

/-- With no history it bootstraps (R270). -/
theorem exec_tsUpdate_of_first {x : RoundTrip} (h : InOrder srcTx tgtRx tgtTx srcRx)
    (hx : roundTrip (u64 srcTx) (s64 tgtRx) (s64 tgtTx) (u64 srcRx) = x) (h0 : s.timeSync.nhist = 0) :
    exec (.tsUpdate srcTx tgtRx tgtTx srcRx) s = .next (afterSample s
      ((s.timeSync.push x).bootstrap s.params.counterHz x, outBootstrapped)) := by
  rw [exec_tsUpdate_of_accepted h hx (absurd h0), filterStep_of_nhist_eq_zero _ _ _ (by rwa [TimeSync.push_nhist])]

/-- With a history it is predicted and corrected (R271). -/
theorem exec_tsUpdate_of_later {x : RoundTrip} (h : InOrder srcTx tgtRx tgtTx srcRx)
    (hx : roundTrip (u64 srcTx) (s64 tgtRx) (s64 tgtTx) (u64 srcRx) = x) (hn : s.timeSync.nhist ≠ 0)
    (hnew : u64 (s.timeSync.entry (s.timeSync.head - 1)).counter < x.c) :
    exec (.tsUpdate srcTx tgtRx tgtTx srcRx) s = .next (afterSample s
      (predictCorrect s.params s.timeSync.head x (s.timeSync.push x))) := by
  rw [exec_tsUpdate_of_accepted h hx fun _ => hnew, filterStep_of_nhist_ne_zero _ _ _ (by rwa [TimeSync.push_nhist])]

end

/-! ## The rejections and the outcome codes -/

theorem filterStep_outcome_le (p : Params) (k : BitVec 4) (x : RoundTrip) (ts : TimeSync) :
    (filterStep p k x ts).2.toNat ≤ 6 := by
  by_cases h0 : ts.nhist = 0
  · simp [filterStep_of_nhist_eq_zero p k x h0, outBootstrapped]
  rw [filterStep_of_nhist_ne_zero p k x h0]
  rcases predictCorrect_cases p k x ts with h | ⟨_, _, h⟩ | ⟨_, _, _, _, h⟩
  · simp [h, outResync]
  · simp [h, outPredicted]
  · simp [h, outFiltered]

/-- The outcome codes are 0 to 6 (R265, R269). -/
theorem updateFilter_outcome_le (p : Params) (stx trx ttx srx : Int) (ts : TimeSync) :
    (updateFilter p stx trx ttx srx ts).2.toNat ≤ 6 := by
  by_cases hnone : trx = 0 ∨ ttx = 0
  · simp [updateFilter_of_noTime p ts hnone, outNoTime]
  by_cases hback : stx > srx ∨ trx > ttx
  · simp [updateFilter_of_backwards p ts hnone hback, outNonMonotonic]
  by_cases hstale : ts.nhist ≠ 0 ∧ (roundTrip stx trx ttx srx).c ≤ u64 (ts.entry (ts.head - 1)).counter
  · simp [updateFilter_of_stale p ts hnone hback hstale, outNotAdvancing]
  rw [updateFilter_of_accepted p ts hnone hback hstale]
  exact filterStep_outcome_le _ _ _ _

/-- Settles O52: the first check that fails decides; and a row of class `Z`. -/
theorem tsUpdateRejections : Obligations.TsUpdateRejections := by
  refine ⟨fun s srcTx tgtRx tgtTx srcRx => ?_, answersIllegal_of_classZ 4 (by decide)⟩
  intro noTime backwards c stale
  have hback : u64 srcTx > u64 srcRx ∨ s64 tgtRx > s64 tgtTx ↔ backwards := or_congr Int.ofNat_lt Iff.rfl
  refine ⟨fun h1 => ?_, fun h1 h2 => ?_, fun h1 h2 h3 => ?_, ?_⟩
  · exact exec_tsUpdate_of_rejected (updateFilter_of_noTime _ _ h1)
  · exact exec_tsUpdate_of_rejected (updateFilter_of_backwards _ _ h1 (hback.mpr h2))
  · have hc : (roundTrip (u64 srcTx) (s64 tgtRx) (s64 tgtTx) (u64 srcRx)).c = (c : Int) :=
      congrArg RoundTrip.c (roundTrip_of_le _ _ (not_lt.mp fun h => h2 (.inl h)))
    have hstale : s.timeSync.nhist ≠ 0 ∧ (roundTrip (u64 srcTx) (s64 tgtRx) (s64 tgtTx) (u64 srcRx)).c ≤
        u64 (s.timeSync.entry (s.timeSync.head - 1)).counter :=
      h3.imp_right fun hle => hc ▸ Int.ofNat_le.mpr hle
    exact exec_tsUpdate_of_rejected (updateFilter_of_stale _ _ h1 (mt hback.mp h2) hstale)
  · exact ⟨_, _, updateFilter_outcome_le _ _ _ _ _ _, exec_tsUpdate⟩

/-! ## Bootstrap -/

/-- A push of a sample whose counter and delay are naturals, in words (R266). -/
theorem TimeSync.push_natCast (ts : TimeSync) (c dcnt : Nat) (t : Int) :
    ts.push ⟨c, t, dcnt⟩ = { ts with
      head := ts.head + 1
      fifo := ts.fifo.set ts.head.toNat
        { counter := BitVec.ofNat 64 c, time := BitVec.ofInt 64 t, dcounter := BitVec.ofNat 64 dcnt } ts.head.isLt } := by
  simp only [TimeSync.push, TimeSync.setEntry, wrapu64_natCast]
  rfl

/-- `TS_TIME` at the committed counter answers the committed time (R270, R279). -/
theorem exec_tsTime_of_counterOffset {s : State} (h : s.env.counter = s.timeSync.counterOffset) :
    exec .tsTime s = .next (answered s (okResponse [s.timeSync.timeOffset] [] [])) := by
  rw [exec_tsTime, h, TimeSync.timeAt_counterOffset, wrapu64_s64]

/-- Settles O53: the pushed sample becomes the coefficients, and `TS_TIME` is asked at the committed counter. -/
theorem tsUpdateBootstraps : Obligations.TsUpdateBootstraps := by
  intro s srcTx tgtRx tgtTx srcRx hp h0 hrx htx hsrc htgt half c t
  obtain ⟨⟨hf, -⟩, -⟩ := hp
  have hexec := exec_tsUpdate_of_first (s := s) ⟨⟨hrx, htx⟩, hsrc, htgt⟩ (roundTrip_of_le _ _ hsrc) h0
  refine ⟨_, _, hexec, rfl, ?_, fun ll => ?_⟩
  · rw [TimeSync.push_natCast, TimeSync.bootstrap, scaleNom_eq_natCast hf, wrapu64_natCast, wrapu64_natCast]
    rfl
  · exact exec_tsTime_of_counterOffset (wrapu64_natCast _).symm

/-! ## The one-second guard -/

/-- The prediction does not see the push. -/
theorem TimeSync.timeAt_push (ts : TimeSync) (x : RoundTrip) (c : Int) : (ts.push x).timeAt c = ts.timeAt c := rfl

/-- A sample further than one second from its prediction empties the history (R272). -/
theorem predictCorrect_of_far {p : Params} {k : BitVec 4} {x : RoundTrip} {ts : TimeSync}
    (hfar : resyncThreshold < |x.t - ts.timeAt x.c|) :
    predictCorrect p k x ts = ({ ts with nhist := 0 }, outResync) :=
  if_pos hfar

/-- Within the guard the step is that of its predicted covariance and its measurement (R273 to R277). -/
theorem predictCorrect_of_near {p : Params} {k : BitVec 4} {x : RoundTrip} {ts : TimeSync} {cov : Cov} {m : Measurement}
    (hnear : |x.t - ts.timeAt x.c| ≤ resyncThreshold)
    (hcov : predictCov (elapsed p.counterHz (x.c - u64 ts.counterOffset)) ts.cov = cov)
    (hm : measurement p.counterHz x (ts.entry (k - ts.nhist)) (ts.timeAt x.c) ts.ds.toInt = m) :
    predictCorrect p k x ts =
      if determinant (innovationCov cov m) ≤ 0 then (ts.commitPrediction p x (ts.timeAt x.c) cov, outPredicted)
      else
        let g := gain cov (innovationCov cov m) (determinant (innovationCov cov m))
        (ts.commit p x (ts.timeAt x.c) (timeCorrection g m) (scaleCorrection g m) (correctCov g cov), outFiltered) := by
  subst hcov hm
  exact if_neg (not_lt.mpr hnear)

/-- The step answers the force-resync exactly beyond the guard. -/
theorem predictCorrect_outcome_eq_resync_iff (p : Params) (k : BitVec 4) (x : RoundTrip) (ts : TimeSync) :
    (predictCorrect p k x ts).2 = outResync ↔ resyncThreshold < |x.t - ts.timeAt x.c| := by
  rcases lt_or_ge resyncThreshold |x.t - ts.timeAt x.c| with hfar | hnear
  · simp [predictCorrect_of_far hfar, hfar]
  · rw [predictCorrect_of_near hnear rfl rfl]
    refine iff_of_false ?_ (not_lt.mpr hnear)
    split
    · exact show outPredicted ≠ outResync by decide
    · exact show outFiltered ≠ outResync by decide

/-- Settles O54: the outcome by the guard, and the filter beyond it. -/
theorem tsUpdateForceResync : Obligations.TsUpdateForceResync := by
  intro s srcTx tgtRx tgtTx srcRx hn hrx htx hsrc htgt half c t tp hnew
  obtain ⟨x, hx⟩ : ∃ x : RoundTrip, x = ⟨c, t, half⟩ := ⟨_, rfl⟩
  have hexec := exec_tsUpdate_of_later (s := s) ⟨⟨hrx, htx⟩, hsrc, htgt⟩
    ((roundTrip_of_le _ _ hsrc).trans hx.symm) hn (by rw [hx]; exact Int.ofNat_lt.mpr hnew)
  have hguard : resyncThreshold < |x.t - (s.timeSync.push x).timeAt x.c| ↔ |t - tp| > 2 ^ 30 := by
    rw [TimeSync.timeAt_push, TimeSync.timeAt_eq, hx]
    rfl
  have houtcome := predictCorrect_outcome_eq_resync_iff s.params s.timeSync.head x (s.timeSync.push x)
  refine ⟨_, _, hexec, houtcome.trans hguard, fun h5 => ?_⟩
  rw [predictCorrect_of_far (houtcome.mp h5), hx, TimeSync.push_natCast]

/-! ## The counter spans (R267, R271) -/

/-- The newest entry of a rising history has the greatest counter. -/
theorem TimeSync.Rising.counter_le_newest {ts : TimeSync} {n : Nat} (hr : ts.Rising n) (j : BitVec 4)
    (hj : j.toNat < n) : (ts.history j).counter.toNat ≤ (ts.history 0).counter.toNat := by
  induction hk : j.toNat generalizing j with
  | zero => rw [show j = 0 by bv_omega]
  | succ k ih =>
    have hback : j - 1 + 1 = j := by bv_omega
    have hlt := hr (j - 1) (by bv_omega)
    rw [hback] at hlt
    exact hlt.le.trans (ih (j - 1) (by bv_omega) (by bv_omega))

/-- The reference entry is the oldest of the history (R54). -/
theorem TimeSync.entry_reference (ts : TimeSync) : ts.entry (ts.head - ts.nhist) = ts.history (ts.nhist - 1) := by
  rw [TimeSync.history]
  congr 1
  bv_omega

/-- Settles O57: the committed counter is the newest entry's, and the reference entry is no newer than that. -/
theorem counterSpansArePositive : Obligations.CounterSpansArePositive := by
  intro p ts x hp hi hn hnew
  obtain ⟨-, -, hoffset, hrising⟩ := hi
  have hcommitted : u64 ts.counterOffset < x.c := by
    rwa [← hoffset hn, TimeSync.history_zero]
  have hreference : u64 (ts.entry (ts.head - ts.nhist)).counter ≤ u64 (ts.entry (ts.head - 1)).counter := by
    rw [TimeSync.entry_reference, ← TimeSync.history_zero]
    exact Int.ofNat_le.mpr (TimeSync.Rising.counter_le_newest hrising _ (by bv_omega))
  exact ⟨sub_pos.mpr hcommitted, TimeSync.entry_push_ne ts x (by bv_omega), sub_pos.mpr (hreference.trans_lt hnew)⟩

/-! ## Predict and correct, in plain divisions (R273 to R277) -/

/-- Measurement and noise of a sample that lies past its reference entry (R274). -/
theorem measurement_of_pos {f : Nat} {x : RoundTrip} {ref : Sample} (tp ds : Int) (hf : 1 ≤ f)
    (href : 0 < x.c - u64 ref.counter) :
    measurement f x ref tp ds =
      { yt := (x.t - tp) * 2 ^ 32
        rtt := max (fxmul (x.dcnt * 2 ^ 62 / f) (x.dcnt * 2 ^ 62 / f)) (2 ^ 32)
        ys := sat128 (((x.t - s64 ref.time) * f * 2 ^ 32 - (x.c - u64 ref.counter) * 2 ^ 62) /
          (x.c - u64 ref.counter) - ds)
        rss := max (fxmul ((x.dcnt + u64 ref.dcounter) * 2 ^ 62 / (x.c - u64 ref.counter))
          ((x.dcnt + u64 ref.dcounter) * 2 ^ 62 / (x.c - u64 ref.counter))) (2 ^ 32) } := by
  have hf' : (0 : Int) < f := by omega
  simp only [measurement, floorDiv_of_pos _ hf', floorDiv_of_pos _ href]
  rfl

/-- The gain for a positive determinant (R276). -/
theorem gain_of_pos (p s : Cov) {det : Int} (h : 0 < det) :
    gain p s det =
      { tt := sat128 (sat128 (fxmul p.tt s.ss - fxmul p.ts s.ts) * 2 ^ 32 / det)
        ts := sat128 (sat128 (fxmul p.ts s.tt - fxmul p.tt s.ts) * 2 ^ 32 / det)
        st := sat128 (sat128 (fxmul p.ts s.ss - fxmul p.ss s.ts) * 2 ^ 32 / det)
        ss := sat128 (sat128 (fxmul p.ss s.tt - fxmul p.ts s.ts) * 2 ^ 32 / det) } := by
  simp only [gain, fxdiv_of_pos _ h]

theorem scaleOf_of_pos {f : Nat} (h : 1 ≤ f) (ds : Int) :
    scaleOf f ds =
      satu64 ((2 ^ 63 + (f : Int)) / (2 * f) + (2 ^ 63 + (f : Int)) / (2 * f) * ds / 2 ^ 62) := by
  rw [scaleOf, scaleNom_of_pos h, floorDiv_of_pos _ (by decide)]

/-- The commit of a full correction, its two floors taken (R277). -/
theorem TimeSync.commit_of_pos {p : Params} (h : 1 ≤ p.counterHz) (ts : TimeSync) (x : RoundTrip) (tp dtau dsig : Int)
    (cov : Cov) :
    ts.commit p x tp dtau dsig cov = { ts.setCov cov with
      timeOffset := wrapu64 (sat64 (tp + dtau / 2 ^ 32))
      ds := toFx (sat128 (ts.ds.toInt + dsig))
      counterOffset := wrapu64 x.c
      scale := wrapu64 (satu64 ((2 ^ 63 + (p.counterHz : Int)) / (2 * p.counterHz) +
        (2 ^ 63 + (p.counterHz : Int)) / (2 * p.counterHz) * sat128 (ts.ds.toInt + dsig) / 2 ^ 62))
      nhist := nextNhist p.updateProcessMax ts.nhist } := by
  rw [TimeSync.commit, floorDiv_of_pos _ (show (0 : Int) < 2 ^ 32 by decide), scaleOf_of_pos h]

/-- Settles O55: from the invariant the divisors are positive, so the step's formulas are the statement's, one rule
after the other. -/
theorem tsUpdatePredictsAndCorrects : Obligations.TsUpdatePredictsAndCorrects := by
  intro s srcTx tgtRx tgtTx srcRx hp hi hn hrx htx hsrc htgt ts f m sat mul div dcnt c t ref D tp qd qq ptt pts pss yt
    sigT rtt dkr tkr zs ys sigS rss stt sss det ktt kts kst kss dtau dsig ds nom pushed hnew hnear
  obtain ⟨x, hx⟩ : ∃ x : RoundTrip, x = ⟨c, t, dcnt⟩ := ⟨_, rfl⟩
  have hexec := exec_tsUpdate_of_later (s := s) ⟨⟨hrx, htx⟩, hsrc, htgt⟩
    ((roundTrip_eq _ _ _ _).trans hx.symm) hn (by rw [hx]; exact hnew)
  obtain ⟨-, hslot, href⟩ := counterSpansArePositive s.params ts x hp hi hn (by rw [hx]; exact hnew)
  obtain ⟨⟨hf, -⟩, -⟩ := hp
  -- The statement's product is `fxmul`; its saturation is `sat128` by definition.
  have hmul : mul = fxmul := funext₂ fun a b => (fxmul_eq a b).symm
  clear_value mul
  subst hmul
  have htp : (ts.push x).timeAt x.c = tp := by
    rw [TimeSync.timeAt_push, TimeSync.timeAt_eq, hx]
    rfl
  have hD : elapsed s.params.counterHz (x.c - u64 ts.counterOffset) = D := by
    rw [elapsed, floorDiv_of_pos _ (by omega), hx]
    rfl
  have hcov : predictCov (elapsed s.params.counterHz (x.c - u64 (ts.push x).counterOffset)) (ts.push x).cov =
      ⟨ptt, pts, pss⟩ := by
    rw [TimeSync.push_counterOffset, hD]
    rfl
  have hm : measurement s.params.counterHz x ((ts.push x).entry (ts.head - (ts.push x).nhist))
      ((ts.push x).timeAt x.c) (ts.push x).ds.toInt = ⟨yt, rtt, ys, rss⟩ := by
    rw [TimeSync.push_nhist, hslot, htp, measurement_of_pos _ _ hf href, hx]
    rfl
  have hdet : determinant (innovationCov ⟨ptt, pts, pss⟩ ⟨yt, rtt, ys, rss⟩) = det := rfl
  have hstep := predictCorrect_of_near (k := ts.head) (by rw [htp, hx]; exact hnear) hcov hm
  rw [htp, hdet] at hstep
  refine ⟨fun hpos => ?_, fun hsingular => ?_⟩
  · have hgain : gain ⟨ptt, pts, pss⟩ (innovationCov ⟨ptt, pts, pss⟩ ⟨yt, rtt, ys, rss⟩) det = ⟨ktt, kts, kst, kss⟩ :=
      gain_of_pos _ _ hpos
    rw [if_neg (not_le.mpr hpos), hgain] at hstep
    rw [hexec, hstep]
    dsimp only
    rw [TimeSync.commit_of_pos hf, hx]
    rfl
  · rw [hexec, hstep, if_pos hsingular, hx]
    rfl

end Sys2Proof.Machine
end

section
/-! PROOFS. The family of spec/60_exceptions.md: every framed transaction is answered, a failing command writes no unit,
and NOP. -/

namespace Sys2Proof

/-! ## The decoder is total on framed transactions -/

/-- Every row of the map whose `NARG` is the number of argument words given builds a command of them (R112). -/
theorem build_isSome_of_narg (a : BitVec 8) (data : List Byte) : ∀ args : List Word64,
    (opTable.all fun row => row.narg != args.length || (build row.opc a args data).isSome) = true
  | [] => rfl
  | [_] => rfl
  | [_, _] => rfl
  | [_, _, _] => rfl
  | [_, _, _, _] => rfl
  | _ :: _ :: _ :: _ :: _ :: _ => rfl

theorem exists_build_of_framed {tx : Transaction} {row : OpRow} (hf : tx.framed = true)
    (hrow : opRow? tx.opc = some row) : ∃ i, build tx.opc tx.a tx.args tx.data = some i := by
  have hopc : row.opc = tx.opc := eq_of_beq (List.find?_some hrow :)
  have hnarg : tx.args.length = row.narg := by
    rw [(tx.framed_iff.mp hf).1, nargOf, hrow]
    rfl
  have hbuild := List.all_eq_true.mp (build_isSome_of_narg tx.a tx.data tx.args) row (List.mem_of_find?_eq_some hrow)
  rw [hnarg, hopc, bne_self_eq_false, Bool.false_or] at hbuild
  exact Option.isSome_iff_exists.mp hbuild

/-- The decoder finds a transaction misframed only for its words: its last branch, an assigned opcode whose words build
no command, is never taken (R110, R323). -/
theorem decode_eq_misframed_iff (tx : Transaction) : decode tx = .error .misframed ↔ tx.framed = false := by
  cases hf : tx.framed with
  | false => simp [decode, hf]
  | true =>
    refine iff_of_false (fun h => ?_) Bool.noConfusion
    cases hrow : opRow? tx.opc with
    | none => cases h.symm.trans (decode_of_opRow_none hf hrow)
    | some row =>
      cases hset : row.reservedSet tx with
      | true => cases h.symm.trans (decode_of_reservedSet hf hrow hset)
      | false =>
        obtain ⟨i, hbuild⟩ := exists_build_of_framed hf hrow
        cases h.symm.trans (decode_of_build hf hrow hset hbuild)

end Sys2Proof

namespace Sys2Proof.Machine

/-! ## The three results of a step at a command -/

/-- A step that takes words that are no command transaction (log 7). -/
theorem step_of_decode_misframed {s : State} {tx : Transaction} {env : EnvInputs} {rest : List HostInput}
    (hport : s.port = .command tx env :: rest) (hd : decode tx = .error .misframed) :
    step s = .refused .misframedTransaction := by
  simp [step, hport, hd]

/-- A step at a presented command runs a command, or answers ILLEGAL_COMMAND, at the state in which it is taken; only a
transaction that is not framed is refused. -/
theorem step_command_result {s : State} {tx : Transaction} {env : EnvInputs} {rest : List HostInput}
    (hport : s.port = .command tx env :: rest) :
    (∃ i, step s = exec i (acceptCommand env rest s)) ∨
      (∃ n, step s = .next (answered (acceptCommand env rest s) (failedResponse .illegalCommand n))) ∨
      (tx.framed = false ∧ step s = .refused .misframedTransaction) := by
  cases hd : decode tx with
  | ok i => exact .inl ⟨i, step_of_decode_ok hport hd⟩
  | error e =>
    cases e with
    | unassignedOpcode opc => exact .inr (.inl ⟨nresOf opc, step_of_decode_unassigned hport hd⟩)
    | reservedField opc => exact .inr (.inl ⟨nresOf opc, step_of_decode_reserved hport hd⟩)
    | misframed => exact .inr (.inr ⟨(decode_eq_misframed_iff tx).mp hd, step_of_decode_misframed hport hd⟩)

/-- Settles O7: a decoded command answers, a rejected one answers ILLEGAL_COMMAND, and a framed transaction is not
refused. -/
theorem everyFramedCommandCompletes : Obligations.EveryFramedCommandCompletes := by
  intro s tx env rest hport hframed
  rcases step_command_result hport with ⟨i, hstep⟩ | ⟨n, hstep⟩ | ⟨hnot, -⟩
  · obtain ⟨t, r, hexec, hresponses, -⟩ := exec_answers_response i (acceptCommand env rest s)
    exact ⟨t, r, hstep.trans hexec, hresponses⟩
  · exact ⟨_, _, hstep, rfl⟩
  · exact absurd hframed (Bool.eq_false_iff.mp hnot)

/-! ## Failing commands -/

/-- A command with an operand out of range answers PARAM_INVALID and does nothing else (R113, R322). -/
theorem exec_of_illegal {i : Instr} (h : ¬ OperandsLegal i) (s : State) :
    exec i s = .next (answered s (failedResponse .paramInvalid (nresOfInstr i))) := by
  cases i with
  | nop | frReset | frRecv | frStatus | tpEvent | tsReset | tsUpdate | tsTime | tsRead => exact absurd trivial h
  | crc8 | crc16 | crc32 => exact if_neg (mt (inRange_iff _ _).mp h)
  | frConstructData => exact exec_frConstructData_of_illegal h
  | frConstructLink => exact exec_frConstructLink_of_illegal h
  | tpRegister => exact exec_tpRegister_of_illegal h
  | tpRegisterDefault => exact exec_tpRegisterDefault_of_illegal h
  | tpSend => exact exec_tpSend_of_illegal h
  | tpRecv => exact exec_tpRecv_of_illegal h

/-- A decoded command that fails with one of the two statuses has an operand out of range (O11), since none answers
ILLEGAL_COMMAND (O12). -/
theorem not_operandsLegal_of_failed {i : Instr} {s t : State} {r : Response} (h : exec i s = .next t)
    (hr : t.responses = s.responses ++ [r]) (hfailed : r.status = .paramInvalid ∨ r.status = .illegalCommand) :
    ¬ OperandsLegal i := by
  obtain ⟨-, -, -, hnot⟩ := responseShapeByCommand i s t r h hr
  exact (paramInvalidIffOperandIllegal i s t r h hr).mp (hfailed.resolve_right hnot)

/-- A step at a command whose response has one of the two failing statuses only adds a zeroed response. -/
theorem step_eq_of_failed {s t : State} {tx : Transaction} {env : EnvInputs} {rest : List HostInput} {r : Response}
    (hport : s.port = .command tx env :: rest) (h : step s = .next t) (hr : t.responses = s.responses ++ [r])
    (hfailed : r.status = .paramInvalid ∨ r.status = .illegalCommand) :
    ∃ st n, step s = .next (answered (acceptCommand env rest s) (failedResponse st n)) := by
  rcases step_command_result hport with ⟨i, hstep⟩ | ⟨n, hstep⟩ | ⟨-, hstep⟩
  · have hillegal : ¬ OperandsLegal i := not_operandsLegal_of_failed (hstep.symm.trans h) hr hfailed
    exact ⟨_, _, hstep.trans (exec_of_illegal hillegal _)⟩
  · exact ⟨_, n, hstep⟩
  · cases h.symm.trans hstep

/-- Settles O8: the step's next state is the one in which the command is taken, with a zeroed response. -/
theorem failedCommandWritesNoState : Obligations.FailedCommandWritesNoState := by
  intro s tx env rest t r hport h hr hfailed
  obtain ⟨st, n, hstep⟩ := step_eq_of_failed hport h hr hfailed
  obtain rfl : r = failedResponse st n := response_of_answered hstep h hr
  obtain rfl : t = answered (acceptCommand env rest s) (failedResponse st n) :=
    Host.Outcome.next.inj (h.symm.trans hstep)
  exact ⟨⟨rfl, rfl, rfl, rfl⟩, fun _ => List.eq_of_mem_replicate, rfl, rfl⟩

/-! ## NOP -/

/-- Settles O14: NOP completes at the state given, its word is the first of O3, and its row is of class `Z`. -/
theorem nopDoesNothing : Obligations.NopDoesNothing := by
  obtain ⟨hzeroWord, -⟩ := writtenCommandWordsDecode
  exact ⟨fun s => (complete_eq_next_iff [] [] [] s _).mpr rfl, hzeroWord, answersIllegal_of_classZ 0 (by decide)⟩

end Sys2Proof.Machine
end

section
/-! PROOFS. The family of spec/70_reset_and_hazards.md: the values after reset, and a step without a command. -/

namespace Sys2Proof.Machine

/-! ## The table of R360 -/

theorem Transport.slot_reset (p : BitVec 5) :
    Transport.reset.slot p = { evEn := false, rxEn := false, userData := 0, portMeta := 0 } :=
  Vector.getElem_replicate _

theorem TimeSync.entry_reset (f : Nat) (k : BitVec 4) :
    (TimeSync.reset f).entry k = { counter := 0, time := 0, dcounter := 0 } :=
  Vector.getElem_replicate _

/-- `TS_SCALE` after reset is `SCALE_NOM` (R48, R55). -/
theorem TimeSync.toNat_scale_reset {p : Params} (h : p.Legal) :
    (TimeSync.reset p.counterHz).scale.toNat = (2 ^ 63 + p.counterHz) / (2 * p.counterHz) := by
  obtain ⟨⟨hf1, hf2⟩, -⟩ := h
  exact toNat_wrapu64_scaleNom hf1 hf2

/-- The three sub-units' reset states have the values of R360's table, whatever else the state holds. -/
theorem atResetValues_of_units_reset {s : State} (hframer : s.framer = Framer.reset)
    (htransport : s.transport = Transport.reset) (htimeSync : s.timeSync = TimeSync.reset s.params.counterHz) :
    AtResetValues s := by
  rw [AtResetValues, hframer, htransport, htimeSync]
  refine ⟨?framer, ?transport, ?timeSync⟩
  case framer => exact ⟨rfl, rfl, rfl, rfl, rfl, rfl, rfl⟩
  case transport => exact ⟨Transport.slot_reset, rfl, rfl⟩
  case timeSync =>
    exact ⟨rfl, rfl, TimeSync.toNat_scale_reset, rfl, rfl, rfl, rfl, TimeSync.entry_reset _, rfl, rfl⟩

theorem atResetValues_takeGlobalReset (rest : List HostInput) (s : State) :
    AtResetValues (takeGlobalReset rest s) :=
  atResetValues_of_units_reset (takeGlobalReset_framer rest s) (takeGlobalReset_transport rest s)
    (takeGlobalReset_timeSync rest s)

theorem atResetValues_resetWith (p : Params) : AtResetValues (State.resetWith p) :=
  atResetValues_of_units_reset rfl rfl rfl

/-! ## A step without a command -/

/-- Settles O5: an empty port leaves the state, and both ways to reset put each sub-unit in its reset state. -/
theorem resetInputAndIdleStep : Obligations.ResetInputAndIdleStep := by
  refine ⟨fun _ => step_of_port_nil, fun s rest hport => ?resetInput, fun p => ⟨atResetValues_resetWith p, rfl⟩⟩
  case resetInput =>
    exact ⟨takeGlobalReset rest s, step_of_globalReset hport, atResetValues_takeGlobalReset rest s,
      takeGlobalReset_params rest s, takeGlobalReset_port rest s, takeGlobalReset_env rest s,
      takeGlobalReset_pos rest s, takeGlobalReset_responses rest s⟩

end Sys2Proof.Machine
end
